-- ==== Sys2Proof/Word.lean ====
section
/-! DEFINITION. The machine's words: a byte and a 16-bit word (spec 00_scope R8, R10). -/

namespace Sys2Proof

/-- An 8-bit value: a register half, a memory byte, a port value (R8). -/
abbrev Byte := BitVec 8

/-- A 16-bit value: a register pair, a window address (R8). -/
abbrev Word := BitVec 16

end Sys2Proof
end

