-- ==== Sys2Proof/Config.lean ====
section
/-! DEFINITION. What an implementation fixes: the sizes of R8, the data an open parameter ranges over, and the
open parameters of R9 as uninterpreted constants (no body, so no proof can see a value). -/

namespace Sys2Proof.Machine

/-- A byte array of one of the two physical memories (20_memory R70), held sparsely: address and byte pairs,
addresses strictly rising, no pair whose byte is what an unlisted address reads as (`Memory.fill`). The form is
`Memory.wf`. -/
structure Memory where
  cells : List Host.Cell
  deriving DecidableEq, Repr, Inhabited

/-- The bytes of a disk image (49 R560): its length, and its bytes held in the same sparse form as `Memory`. -/
structure Blob where
  size  : Nat
  bytes : Memory
  deriving DecidableEq, Repr, Inhabited

/-- One entry of the Disk Store's unit table (10_state R43, 49 R560). -/
structure DiskUnit where
  present     : Bool
  data        : Blob
  /-- `slice_count` less one: `slice_count` is 1..8 (R560). -/
  extraSlices : Fin 8
  /-- The sector offset `position` (R562). -/
  position    : BitVec 32
  dirty       : Bool
  deriving DecidableEq, Repr, Inhabited

/-- What `hbios_ext` sees (49 R550): the function code, six registers, BANK, both memories, the unit table. -/
structure HbiosArgs where
  fn    : Byte
  a     : Byte
  c     : Byte
  d     : Byte
  e     : Byte
  h     : Byte
  l     : Byte
  bank  : Byte
  rom   : Memory
  ram   : Memory
  units : Vector DiskUnit 16
  deriving DecidableEq, Repr, Inhabited

/-- A unit as `hbios_ext` answers it: the fields of R560 with the image as plain bytes. -/
structure UnitImage where
  present     : Bool
  data        : List Byte
  extraSlices : Fin 8
  position    : BitVec 32
  dirty       : Bool
  deriving DecidableEq, Repr, Inhabited

/-- What `hbios_ext` answers (49 R550): seven registers, the bytes of `ram` it replaces (each an offset, taken
modulo the size of `ram`, and a byte) and the unit table. Log 6. -/
structure HbiosResult where
  a         : Byte
  b         : Byte
  c         : Byte
  d         : Byte
  e         : Byte
  h         : Byte
  l         : Byte
  ramWrites : List Host.Cell
  units     : Vector UnitImage 16
  deriving DecidableEq, Repr, Inhabited

end Sys2Proof.Machine

namespace Sys2Proof.Config

/-- ROM_SIZE and RAM_SIZE (R8): 512 KiB each. -/
def physSize : Nat := 524288

/-- BANK_SIZE (R8): 32 KiB. -/
def bankSize : Nat := 32768

/-- A disk sector (49 R560): 512 bytes. -/
def sectorSize : Nat := 512

/-- A slice (49 R560): 16384 sectors. -/
def sliceSectors : Nat := 16384

/-- The bytes a first select of a RAM bank copies (20 R75): page zero and the HCB. -/
def headSize : Nat := 512

/-- `XY_DRAW` and `UNKNOWN_FLAG_DRAW` (R9; 92 D3, D4): the n-th drawn flag byte. A flag the spec leaves open takes
its own bit of it. Free value, logs 3 and 4. -/
opaque freeFlags : Nat → Byte

/-- The registers HL, DE, BC after the bank copy (49 R555; 92 D22): the n-th drawn word. Free value, log 5. -/
opaque freeWord : Nat → Word

/-- `HBIOS_VERSION`, major byte (R9, 49 R541). Log 7. -/
opaque hbiosVersionMajor : Byte

/-- `HBIOS_VERSION`, minor byte (R9, 49 R541). Log 7. -/
opaque hbiosVersionMinor : Byte

/-- `hbios_ext` (R9, 49 R550; 92 D20): a fixed, total, uninterpreted function. Log 6. -/
opaque hbiosExt : Machine.HbiosArgs → Machine.HbiosResult

end Sys2Proof.Config
end

