-- ==== Sys2Proof/Syntax.lean ====
section
/-! DEFINITION. Syntax: one constructor of `Instr` per row of spec/opcode_table.json (30_encoding R120 to R134),
with its operands already turned into names. -/

namespace Sys2Proof

/-- The seven 8-bit registers a register code names (30 R123). -/
inductive Reg8 where
  | b | c | d | e | h | l | a
  deriving DecidableEq, Repr

/-- The pairs of the `dd`/`ss` table (30 R124). -/
inductive PairDD where
  | bc | de | hl | sp
  deriving DecidableEq, Repr

/-- The pairs of the `qq` table, `PUSH` and `POP` (30 R124). -/
inductive PairQQ where
  | bc | de | hl | af
  deriving DecidableEq, Repr

/-- The pairs of the `pp` table, `ADD IX,pp` (30 R124). -/
inductive PairPP where
  | bc | de | ix | sp
  deriving DecidableEq, Repr

/-- The pairs of the `rr` table, `ADD IY,rr` (30 R124). -/
inductive PairRR where
  | bc | de | iy | sp
  deriving DecidableEq, Repr

/-- The condition codes (10 R47, 30 R125). -/
inductive Cond where
  | nz | z | nc | c | po | pe | p | m
  deriving DecidableEq, Repr

/-- The documented instructions. A name ending `AtHL`, `AtIX`, `AtIY`, `AtNN` (and so on) has a memory operand
there; `d` is the displacement byte and `e` the offset byte, both read as two's complement (30 R127); `b` is a bit
number and `t` a restart index, both 0..7 (30 R126, checked in WellFormed). -/
inductive Instr where
  -- Load (40_load)
  | ldRR (r : Reg8) (src : Reg8)  -- `LD r,r'`, R200
  | ldRN (r : Reg8) (n : Byte)  -- `LD r,n`, R201
  | ldRAtHL (r : Reg8)  -- `LD r,(HL)`, R202
  | ldRAtIX (r : Reg8) (d : Byte)  -- `LD r,(IX+d)`, R203
  | ldRAtIY (r : Reg8) (d : Byte)  -- `LD r,(IY+d)`, R204
  | ldAtHLR (src : Reg8)  -- `LD (HL),r`, R205
  | ldAtIXR (d : Byte) (src : Reg8)  -- `LD (IX+d),r`, R206
  | ldAtIYR (d : Byte) (src : Reg8)  -- `LD (IY+d),r`, R207
  | ldAtHLN (n : Byte)  -- `LD (HL),n`, R208
  | ldAtIXN (d : Byte) (n : Byte)  -- `LD (IX+d),n`, R209
  | ldAtIYN (d : Byte) (n : Byte)  -- `LD (IY+d),n`, R210
  | ldAAtBC  -- `LD A,(BC)`, R211
  | ldAAtDE  -- `LD A,(DE)`, R212
  | ldAAtNN (nn : Word)  -- `LD A,(nn)`, R213
  | ldAtBCA  -- `LD (BC),A`, R214
  | ldAtDEA  -- `LD (DE),A`, R215
  | ldAtNNA (nn : Word)  -- `LD (nn),A`, R216
  | ldAI  -- `LD A,I`, R217
  | ldAR  -- `LD A,R`, R218
  | ldIA  -- `LD I,A`, R219
  | ldRA  -- `LD R,A`, R220
  | ldDDNN (dd : PairDD) (nn : Word)  -- `LD dd,nn`, R221
  | ldIXNN (nn : Word)  -- `LD IX,nn`, R222
  | ldIYNN (nn : Word)  -- `LD IY,nn`, R223
  | ldHLAtNN (nn : Word)  -- `LD HL,(nn)`, R224
  | ldDDAtNN (dd : PairDD) (nn : Word)  -- `LD dd,(nn)`, R225
  | ldIXAtNN (nn : Word)  -- `LD IX,(nn)`, R226
  | ldIYAtNN (nn : Word)  -- `LD IY,(nn)`, R227
  | ldAtNNHL (nn : Word)  -- `LD (nn),HL`, R228
  | ldAtNNDD (nn : Word) (dd : PairDD)  -- `LD (nn),dd`, R229
  | ldAtNNIX (nn : Word)  -- `LD (nn),IX`, R230
  | ldAtNNIY (nn : Word)  -- `LD (nn),IY`, R231
  | ldSPHL  -- `LD SP,HL`, R232
  | ldSPIX  -- `LD SP,IX`, R233
  | ldSPIY  -- `LD SP,IY`, R234
  | pushQQ (qq : PairQQ)  -- `PUSH qq`, R235
  | pushIX  -- `PUSH IX`, R236
  | pushIY  -- `PUSH IY`, R237
  | popQQ (qq : PairQQ)  -- `POP qq`, R238
  | popIX  -- `POP IX`, R239
  | popIY  -- `POP IY`, R240
  -- 8-bit arithmetic and logic (41_arith8_logic)
  | addR (src : Reg8)  -- `ADD A,r`, R254
  | addN (n : Byte)  -- `ADD A,n`, R254
  | addAtHL  -- `ADD A,(HL)`, R254
  | addAtIX (d : Byte)  -- `ADD A,(IX+d)`, R254
  | addAtIY (d : Byte)  -- `ADD A,(IY+d)`, R254
  | adcR (src : Reg8)  -- `ADC A,r`, R255
  | adcN (n : Byte)  -- `ADC A,n`, R255
  | adcAtHL  -- `ADC A,(HL)`, R255
  | adcAtIX (d : Byte)  -- `ADC A,(IX+d)`, R255
  | adcAtIY (d : Byte)  -- `ADC A,(IY+d)`, R255
  | subR (src : Reg8)  -- `SUB r`, R256
  | subN (n : Byte)  -- `SUB n`, R256
  | subAtHL  -- `SUB (HL)`, R256
  | subAtIX (d : Byte)  -- `SUB (IX+d)`, R256
  | subAtIY (d : Byte)  -- `SUB (IY+d)`, R256
  | sbcR (src : Reg8)  -- `SBC A,r`, R257
  | sbcN (n : Byte)  -- `SBC A,n`, R257
  | sbcAtHL  -- `SBC A,(HL)`, R257
  | sbcAtIX (d : Byte)  -- `SBC A,(IX+d)`, R257
  | sbcAtIY (d : Byte)  -- `SBC A,(IY+d)`, R257
  | andR (src : Reg8)  -- `AND r`, R258
  | andN (n : Byte)  -- `AND n`, R258
  | andAtHL  -- `AND (HL)`, R258
  | andAtIX (d : Byte)  -- `AND (IX+d)`, R258
  | andAtIY (d : Byte)  -- `AND (IY+d)`, R258
  | xorR (src : Reg8)  -- `XOR r`, R259
  | xorN (n : Byte)  -- `XOR n`, R259
  | xorAtHL  -- `XOR (HL)`, R259
  | xorAtIX (d : Byte)  -- `XOR (IX+d)`, R259
  | xorAtIY (d : Byte)  -- `XOR (IY+d)`, R259
  | orR (src : Reg8)  -- `OR r`, R260
  | orN (n : Byte)  -- `OR n`, R260
  | orAtHL  -- `OR (HL)`, R260
  | orAtIX (d : Byte)  -- `OR (IX+d)`, R260
  | orAtIY (d : Byte)  -- `OR (IY+d)`, R260
  | cpR (src : Reg8)  -- `CP r`, R261
  | cpN (n : Byte)  -- `CP n`, R261
  | cpAtHL  -- `CP (HL)`, R261
  | cpAtIX (d : Byte)  -- `CP (IX+d)`, R261
  | cpAtIY (d : Byte)  -- `CP (IY+d)`, R261
  | incR (r : Reg8)  -- `INC r`, R262
  | incAtHL  -- `INC (HL)`, R263
  | incAtIX (d : Byte)  -- `INC (IX+d)`, R264
  | incAtIY (d : Byte)  -- `INC (IY+d)`, R265
  | decR (r : Reg8)  -- `DEC r`, R266
  | decAtHL  -- `DEC (HL)`, R267
  | decAtIX (d : Byte)  -- `DEC (IX+d)`, R268
  | decAtIY (d : Byte)  -- `DEC (IY+d)`, R269
  | daa  -- `DAA`, R270
  | cpl  -- `CPL`, R271
  | neg  -- `NEG`, R272
  | ccf  -- `CCF`, R273
  | scf  -- `SCF`, R274
  -- 16-bit arithmetic (42_arith16)
  | addHLSS (ss : PairDD)  -- `ADD HL,ss`, R300
  | adcHLSS (ss : PairDD)  -- `ADC HL,ss`, R301
  | sbcHLSS (ss : PairDD)  -- `SBC HL,ss`, R302
  | addIXPP (pp : PairPP)  -- `ADD IX,pp`, R303
  | addIYRR (rr : PairRR)  -- `ADD IY,rr`, R304
  | incSS (ss : PairDD)  -- `INC ss`, R305
  | incIX  -- `INC IX`, R306
  | incIY  -- `INC IY`, R307
  | decSS (ss : PairDD)  -- `DEC ss`, R308
  | decIX  -- `DEC IX`, R309
  | decIY  -- `DEC IY`, R310
  -- Rotate and shift (43_rotate_shift)
  | rlca  -- `RLCA`, R320
  | rla  -- `RLA`, R321
  | rrca  -- `RRCA`, R322
  | rra  -- `RRA`, R323
  | rlcR (r : Reg8)  -- `RLC r`, R325
  | rlcAtHL  -- `RLC (HL)`, R325
  | rlcAtIX (d : Byte)  -- `RLC (IX+d)`, R325
  | rlcAtIY (d : Byte)  -- `RLC (IY+d)`, R325
  | rrcR (r : Reg8)  -- `RRC r`, R326
  | rrcAtHL  -- `RRC (HL)`, R326
  | rrcAtIX (d : Byte)  -- `RRC (IX+d)`, R326
  | rrcAtIY (d : Byte)  -- `RRC (IY+d)`, R326
  | rlR (r : Reg8)  -- `RL r`, R327
  | rlAtHL  -- `RL (HL)`, R327
  | rlAtIX (d : Byte)  -- `RL (IX+d)`, R327
  | rlAtIY (d : Byte)  -- `RL (IY+d)`, R327
  | rrR (r : Reg8)  -- `RR r`, R328
  | rrAtHL  -- `RR (HL)`, R328
  | rrAtIX (d : Byte)  -- `RR (IX+d)`, R328
  | rrAtIY (d : Byte)  -- `RR (IY+d)`, R328
  | slaR (r : Reg8)  -- `SLA r`, R329
  | slaAtHL  -- `SLA (HL)`, R329
  | slaAtIX (d : Byte)  -- `SLA (IX+d)`, R329
  | slaAtIY (d : Byte)  -- `SLA (IY+d)`, R329
  | sraR (r : Reg8)  -- `SRA r`, R330
  | sraAtHL  -- `SRA (HL)`, R330
  | sraAtIX (d : Byte)  -- `SRA (IX+d)`, R330
  | sraAtIY (d : Byte)  -- `SRA (IY+d)`, R330
  | srlR (r : Reg8)  -- `SRL r`, R331
  | srlAtHL  -- `SRL (HL)`, R331
  | srlAtIX (d : Byte)  -- `SRL (IX+d)`, R331
  | srlAtIY (d : Byte)  -- `SRL (IY+d)`, R331
  | rld  -- `RLD`, R332
  | rrd  -- `RRD`, R333
  -- Bit test, set, reset (44_bit)
  | bitR (b : Nat) (r : Reg8)  -- `BIT b,r`, R350
  | bitAtHL (b : Nat)  -- `BIT b,(HL)`, R351
  | bitAtIX (b : Nat) (d : Byte)  -- `BIT b,(IX+d)`, R352
  | bitAtIY (b : Nat) (d : Byte)  -- `BIT b,(IY+d)`, R353
  | setR (b : Nat) (r : Reg8)  -- `SET b,r`, R354
  | setAtHL (b : Nat)  -- `SET b,(HL)`, R354
  | setAtIX (b : Nat) (d : Byte)  -- `SET b,(IX+d)`, R354
  | setAtIY (b : Nat) (d : Byte)  -- `SET b,(IY+d)`, R354
  | resR (b : Nat) (r : Reg8)  -- `RES b,r`, R355
  | resAtHL (b : Nat)  -- `RES b,(HL)`, R355
  | resAtIX (b : Nat) (d : Byte)  -- `RES b,(IX+d)`, R355
  | resAtIY (b : Nat) (d : Byte)  -- `RES b,(IY+d)`, R355
  -- Jump, call, return, restart (45_jump_call_ret)
  | jpNN (nn : Word)  -- `JP nn`, R361
  | jpCcNN (cc : Cond) (nn : Word)  -- `JP cc,nn`, R362
  | jrE (e : Byte)  -- `JR e`, R363
  | jrCE (e : Byte)  -- `JR C,e`, R364
  | jrNcE (e : Byte)  -- `JR NC,e`, R365
  | jrZE (e : Byte)  -- `JR Z,e`, R366
  | jrNzE (e : Byte)  -- `JR NZ,e`, R367
  | jpHL  -- `JP (HL)`, R368
  | jpIX  -- `JP (IX)`, R369
  | jpIY  -- `JP (IY)`, R370
  | djnzE (e : Byte)  -- `DJNZ e`, R371
  | callNN (nn : Word)  -- `CALL nn`, R372
  | callCcNN (cc : Cond) (nn : Word)  -- `CALL cc,nn`, R373
  | ret  -- `RET`, R374
  | retCc (cc : Cond)  -- `RET cc`, R375
  | reti  -- `RETI`, R376
  | retn  -- `RETN`, R377
  | rst (t : Nat)  -- `RST p`, R378
  -- Input and output (46_io)
  | inAPortN (n : Byte)  -- `IN A,(n)`, R391
  | inRPortC (r : Reg8)  -- `IN r,(C)`, R392
  | ini  -- `INI`, R393
  | inir  -- `INIR`, R394
  | ind  -- `IND`, R395
  | indr  -- `INDR`, R396
  | outPortNA (n : Byte)  -- `OUT (n),A`, R397
  | outPortCR (src : Reg8)  -- `OUT (C),r`, R398
  | outi  -- `OUTI`, R399
  | otir  -- `OTIR`, R400
  | outd  -- `OUTD`, R401
  | otdr  -- `OTDR`, R402
  -- Block transfer and search (47_block_transfer_search)
  | ldi  -- `LDI`, R420
  | ldir  -- `LDIR`, R421
  | ldd  -- `LDD`, R422
  | lddr  -- `LDDR`, R423
  | cpi  -- `CPI`, R424
  | cpir  -- `CPIR`, R425
  | cpd  -- `CPD`, R426
  | cpdr  -- `CPDR`, R427
  -- Exchange and CPU control (48_exchange_cpu_control)
  | exDEHL  -- `EX DE,HL`, R440
  | exAFAF  -- `EX AF,AF'`, R441
  | exx  -- `EXX`, R442
  | exAtSPHL  -- `EX (SP),HL`, R443
  | exAtSPIX  -- `EX (SP),IX`, R444
  | exAtSPIY  -- `EX (SP),IY`, R445
  | nop  -- `NOP`, R446
  | halt  -- `HALT`, R447
  | di  -- `DI`, R448
  | ei  -- `EI`, R449
  | im0  -- `IM 0`, R450
  | im1  -- `IM 1`, R451
  | im2  -- `IM 2`, R452
  deriving DecidableEq, Repr

end Sys2Proof
end

