-- ==== Sys2Proof/WellFormed.lean ====
section
/-! DEFINITION. Which instructions the encoding can express. Register, pair and condition operands are so by
their types; what is left are the two 3-bit numbers of 30_encoding R126. -/

namespace Sys2Proof

/-- The bit number of `BIT`, `SET`, `RES` is 0..7 (30 R126). -/
def Instr.bitNumber : Instr → Option Nat
  | .bitR b _ | .bitAtHL b | .bitAtIX b _ | .bitAtIY b _ => some b
  | .setR b _ | .setAtHL b | .setAtIX b _ | .setAtIY b _ => some b
  | .resR b _ | .resAtHL b | .resAtIX b _ | .resAtIY b _ => some b
  | _ => none

/-- The restart index of `RST` is 0..7 (30 R126). -/
def Instr.restartIndex : Instr → Option Nat
  | .rst t => some t
  | _ => none

/-- An instruction the encoding can express: its bit number and its restart index, where it has one, fit three
bits (30 R126). -/
def Instr.wellFormed (i : Instr) : Bool :=
  (match i.bitNumber with
   | some b => decide (b < 8)
   | none => true) &&
  (match i.restartIndex with
   | some t => decide (t < 8)
   | none => true)

end Sys2Proof
end

