-- ==== Sys2Proof/Decode.lean ====
section
/-! DEFINITION. Decode and encode: the opcode maps of 30_encoding R120 to R135. Decoding is total on any bytes: a byte
sequence that matches no row of the opcode table is refused by the name of R128, with the byte R121 reports. The
encoder is written from the encodings of the table's rows. -/

namespace Sys2Proof

/-! ### Bytes and words -/

/-- Bits 7:0 of a word (R10). -/
def lowByte (w : Word) : Byte := w.setWidth 8

/-- Bits 15:8 of a word (R10). -/
def highByte (w : Word) : Byte := (w >>> 8).setWidth 8

/-- The word whose bits 15:8 are `hi` and whose bits 7:0 are `lo`: R10's pair of `hi` and `lo`. -/
def mkWord (hi lo : Byte) : Word := hi ++ lo

/-! ### Fields of an opcode byte (30 R120) -/

/-- `x = op[7:6]`. -/
def fieldX (op : Byte) : Nat := op.toNat / 64

/-- `y = op[5:3]`. -/
def fieldY (op : Byte) : Nat := op.toNat / 8 % 8

/-- `z = op[2:0]`. -/
def fieldZ (op : Byte) : Nat := op.toNat % 8

/-- `p = op[5:4]`. -/
def fieldP (op : Byte) : Nat := op.toNat / 16 % 4

/-- `q = op[3]`. -/
def fieldQ (op : Byte) : Nat := op.toNat / 8 % 2

/-- The register a 3-bit code names; code 6 names none (R123). -/
def reg8OfCode : Nat → Option Reg8
  | 0 => some .b
  | 1 => some .c
  | 2 => some .d
  | 3 => some .e
  | 4 => some .h
  | 5 => some .l
  | 7 => some .a
  | _ => none

/-- The pair of the `dd`/`ss` table (R124). -/
def pairDDOfCode : Nat → PairDD
  | 0 => .bc
  | 1 => .de
  | 2 => .hl
  | _ => .sp

/-- The pair of the `qq` table (R124). -/
def pairQQOfCode : Nat → PairQQ
  | 0 => .bc
  | 1 => .de
  | 2 => .hl
  | _ => .af

/-- The pair of the `pp` table (R124). -/
def pairPPOfCode : Nat → PairPP
  | 0 => .bc
  | 1 => .de
  | 2 => .ix
  | _ => .sp

/-- The pair of the `rr` table (R124). -/
def pairRROfCode : Nat → PairRR
  | 0 => .bc
  | 1 => .de
  | 2 => .iy
  | _ => .sp

/-- The condition a 3-bit code names (R125). -/
def condOfCode : Nat → Cond
  | 0 => .nz
  | 1 => .z
  | 2 => .nc
  | 3 => .c
  | 4 => .po
  | 5 => .pe
  | 6 => .p
  | _ => .m

/-! ### What decoding answers -/

/-- An instruction and its length in bytes, or the byte that failed to decode (R121) and how many bytes were
looked at to find that out. -/
inductive Decoded where
  | instr (i : Instr) (len : Nat)
  | unimplemented (op : Byte) (seen : Nat)
  deriving DecidableEq, Repr

/-! ### Accumulator operations and rotates, by their 3-bit operation code -/

/-- `op r` of R253, operation code `y`. -/
def aluReg (y : Nat) (src : Reg8) : Instr :=
  match y with
  | 0 => .addR src
  | 1 => .adcR src
  | 2 => .subR src
  | 3 => .sbcR src
  | 4 => .andR src
  | 5 => .xorR src
  | 6 => .orR src
  | _ => .cpR src

/-- `op n` of R253. -/
def aluImm (y : Nat) (n : Byte) : Instr :=
  match y with
  | 0 => .addN n
  | 1 => .adcN n
  | 2 => .subN n
  | 3 => .sbcN n
  | 4 => .andN n
  | 5 => .xorN n
  | 6 => .orN n
  | _ => .cpN n

/-- `op (HL)` of R253. -/
def aluAtHL (y : Nat) : Instr :=
  match y with
  | 0 => .addAtHL
  | 1 => .adcAtHL
  | 2 => .subAtHL
  | 3 => .sbcAtHL
  | 4 => .andAtHL
  | 5 => .xorAtHL
  | 6 => .orAtHL
  | _ => .cpAtHL

/-- `op (IX+d)` of R253. -/
def aluAtIX (y : Nat) (d : Byte) : Instr :=
  match y with
  | 0 => .addAtIX d
  | 1 => .adcAtIX d
  | 2 => .subAtIX d
  | 3 => .sbcAtIX d
  | 4 => .andAtIX d
  | 5 => .xorAtIX d
  | 6 => .orAtIX d
  | _ => .cpAtIX d

/-- `op (IY+d)` of R253. -/
def aluAtIY (y : Nat) (d : Byte) : Instr :=
  match y with
  | 0 => .addAtIY d
  | 1 => .adcAtIY d
  | 2 => .subAtIY d
  | 3 => .sbcAtIY d
  | 4 => .andAtIY d
  | 5 => .xorAtIY d
  | 6 => .orAtIY d
  | _ => .cpAtIY d

/-- `op r` of R324; code 6 is the undocumented `SLL`. -/
def rotReg (y : Nat) (r : Reg8) : Option Instr :=
  match y with
  | 0 => some (.rlcR r)
  | 1 => some (.rrcR r)
  | 2 => some (.rlR r)
  | 3 => some (.rrR r)
  | 4 => some (.slaR r)
  | 5 => some (.sraR r)
  | 7 => some (.srlR r)
  | _ => none

/-- `op (HL)` of R324. -/
def rotAtHL (y : Nat) : Option Instr :=
  match y with
  | 0 => some .rlcAtHL
  | 1 => some .rrcAtHL
  | 2 => some .rlAtHL
  | 3 => some .rrAtHL
  | 4 => some .slaAtHL
  | 5 => some .sraAtHL
  | 7 => some .srlAtHL
  | _ => none

/-- `op (IX+d)` of R324. -/
def rotAtIX (y : Nat) (d : Byte) : Option Instr :=
  match y with
  | 0 => some (.rlcAtIX d)
  | 1 => some (.rrcAtIX d)
  | 2 => some (.rlAtIX d)
  | 3 => some (.rrAtIX d)
  | 4 => some (.slaAtIX d)
  | 5 => some (.sraAtIX d)
  | 7 => some (.srlAtIX d)
  | _ => none

/-- `op (IY+d)` of R324. -/
def rotAtIY (y : Nat) (d : Byte) : Option Instr :=
  match y with
  | 0 => some (.rlcAtIY d)
  | 1 => some (.rrcAtIY d)
  | 2 => some (.rlAtIY d)
  | 3 => some (.rrAtIY d)
  | 4 => some (.slaAtIY d)
  | 5 => some (.sraAtIY d)
  | 7 => some (.srlAtIY d)
  | _ => none

/-! ### The maps -/

/-- The main table (R130), quarter `x = 0`. `n` is the byte after the opcode, `nn` the word after it. -/
def decodeMain0 (b0 n : Byte) (nn : Word) : Decoded :=
  match fieldZ b0 with
  | 0 =>
    match fieldY b0 with
    | 0 => .instr .nop 1
    | 1 => .instr .exAFAF 1
    | 2 => .instr (.djnzE n) 2
    | 3 => .instr (.jrE n) 2
    | 4 => .instr (.jrNzE n) 2
    | 5 => .instr (.jrZE n) 2
    | 6 => .instr (.jrNcE n) 2
    | _ => .instr (.jrCE n) 2
  | 1 =>
    match fieldQ b0 with
    | 0 => .instr (.ldDDNN (pairDDOfCode (fieldP b0)) nn) 3
    | _ => .instr (.addHLSS (pairDDOfCode (fieldP b0))) 1
  | 2 =>
    match fieldY b0 with
    | 0 => .instr .ldAtBCA 1
    | 1 => .instr .ldAAtBC 1
    | 2 => .instr .ldAtDEA 1
    | 3 => .instr .ldAAtDE 1
    | 4 => .instr (.ldAtNNHL nn) 3
    | 5 => .instr (.ldHLAtNN nn) 3
    | 6 => .instr (.ldAtNNA nn) 3
    | _ => .instr (.ldAAtNN nn) 3
  | 3 =>
    match fieldQ b0 with
    | 0 => .instr (.incSS (pairDDOfCode (fieldP b0))) 1
    | _ => .instr (.decSS (pairDDOfCode (fieldP b0))) 1
  | 4 =>
    match reg8OfCode (fieldY b0) with
    | some r => .instr (.incR r) 1
    | none => .instr .incAtHL 1
  | 5 =>
    match reg8OfCode (fieldY b0) with
    | some r => .instr (.decR r) 1
    | none => .instr .decAtHL 1
  | 6 =>
    match reg8OfCode (fieldY b0) with
    | some r => .instr (.ldRN r n) 2
    | none => .instr (.ldAtHLN n) 2
  | _ =>
    match fieldY b0 with
    | 0 => .instr .rlca 1
    | 1 => .instr .rrca 1
    | 2 => .instr .rla 1
    | 3 => .instr .rra 1
    | 4 => .instr .daa 1
    | 5 => .instr .cpl 1
    | 6 => .instr .scf 1
    | _ => .instr .ccf 1

/-- Quarter `x = 1`: `LD r,r'`, its memory forms, and `HALT` where both codes are 6. -/
def decodeMain1 (b0 : Byte) : Decoded :=
  match reg8OfCode (fieldY b0), reg8OfCode (fieldZ b0) with
  | some r, some src => .instr (.ldRR r src) 1
  | some r, none => .instr (.ldRAtHL r) 1
  | none, some src => .instr (.ldAtHLR src) 1
  | none, none => .instr .halt 1

/-- Quarter `x = 2`: the accumulator operations. -/
def decodeMain2 (b0 : Byte) : Decoded :=
  match reg8OfCode (fieldZ b0) with
  | some src => .instr (aluReg (fieldY b0) src) 1
  | none => .instr (aluAtHL (fieldY b0)) 1

/-- Quarter `x = 3`. The four prefix bytes are taken out before this map is consulted (`decode4`). -/
def decodeMain3 (b0 n : Byte) (nn : Word) : Decoded :=
  match fieldZ b0 with
  | 0 => .instr (.retCc (condOfCode (fieldY b0))) 1
  | 1 =>
    match fieldY b0 with
    | 1 => .instr .ret 1
    | 3 => .instr .exx 1
    | 5 => .instr .jpHL 1
    | 7 => .instr .ldSPHL 1
    | _ => .instr (.popQQ (pairQQOfCode (fieldP b0))) 1
  | 2 => .instr (.jpCcNN (condOfCode (fieldY b0)) nn) 3
  | 3 =>
    match fieldY b0 with
    | 0 => .instr (.jpNN nn) 3
    | 2 => .instr (.outPortNA n) 2
    | 3 => .instr (.inAPortN n) 2
    | 4 => .instr .exAtSPHL 1
    | 5 => .instr .exDEHL 1
    | 6 => .instr .di 1
    | 7 => .instr .ei 1
    | _ => .unimplemented b0 1
  | 4 => .instr (.callCcNN (condOfCode (fieldY b0)) nn) 3
  | 5 =>
    match fieldQ b0 with
    | 0 => .instr (.pushQQ (pairQQOfCode (fieldP b0))) 1
    | _ =>
      match fieldP b0 with
      | 0 => .instr (.callNN nn) 3
      | _ => .unimplemented b0 1
  | 6 => .instr (aluImm (fieldY b0) n) 2
  | _ => .instr (.rst (fieldY b0)) 1

/-- The `CB` table (R131); `b1` is the second byte. -/
def decodeCB (b1 : Byte) : Decoded :=
  match fieldX b1, reg8OfCode (fieldZ b1) with
  | 0, some r =>
    match rotReg (fieldY b1) r with
    | some i => .instr i 2
    | none => .unimplemented b1 2
  | 0, none =>
    match rotAtHL (fieldY b1) with
    | some i => .instr i 2
    | none => .unimplemented b1 2
  | 1, some r => .instr (.bitR (fieldY b1) r) 2
  | 1, none => .instr (.bitAtHL (fieldY b1)) 2
  | 2, some r => .instr (.resR (fieldY b1) r) 2
  | 2, none => .instr (.resAtHL (fieldY b1)) 2
  | _, some r => .instr (.setR (fieldY b1) r) 2
  | _, none => .instr (.setAtHL (fieldY b1)) 2

/-- The `ED` table (R132), second bytes `0x40..0x7F`; `nn` is the word after the second byte. -/
def decodeED1 (b1 : Byte) (nn : Word) : Decoded :=
  match fieldZ b1 with
  | 0 =>
    match reg8OfCode (fieldY b1) with
    | some r => .instr (.inRPortC r) 2
    | none => .unimplemented b1 2
  | 1 =>
    match reg8OfCode (fieldY b1) with
    | some src => .instr (.outPortCR src) 2
    | none => .unimplemented b1 2
  | 2 =>
    match fieldQ b1 with
    | 0 => .instr (.sbcHLSS (pairDDOfCode (fieldP b1))) 2
    | _ => .instr (.adcHLSS (pairDDOfCode (fieldP b1))) 2
  | 3 =>
    match fieldQ b1 with
    | 0 => .instr (.ldAtNNDD nn (pairDDOfCode (fieldP b1))) 4
    | _ => .instr (.ldDDAtNN (pairDDOfCode (fieldP b1)) nn) 4
  | 4 => if fieldY b1 = 0 then .instr .neg 2 else .unimplemented b1 2
  | 5 =>
    match fieldY b1 with
    | 0 => .instr .retn 2
    | 1 => .instr .reti 2
    | _ => .unimplemented b1 2
  | 6 =>
    match fieldY b1 with
    | 0 => .instr .im0 2
    | 2 => .instr .im1 2
    | 3 => .instr .im2 2
    | _ => .unimplemented b1 2
  | _ =>
    match fieldY b1 with
    | 0 => .instr .ldIA 2
    | 1 => .instr .ldRA 2
    | 2 => .instr .ldAI 2
    | 3 => .instr .ldAR 2
    | 4 => .instr .rrd 2
    | 5 => .instr .rld 2
    | _ => .unimplemented b1 2

/-- The `ED` table (R132), second bytes `0x80..0xBF`: the block instructions. -/
def decodeED2 (b1 : Byte) : Decoded :=
  match fieldY b1, fieldZ b1 with
  | 4, 0 => .instr .ldi 2
  | 4, 1 => .instr .cpi 2
  | 4, 2 => .instr .ini 2
  | 4, 3 => .instr .outi 2
  | 5, 0 => .instr .ldd 2
  | 5, 1 => .instr .cpd 2
  | 5, 2 => .instr .ind 2
  | 5, 3 => .instr .outd 2
  | 6, 0 => .instr .ldir 2
  | 6, 1 => .instr .cpir 2
  | 6, 2 => .instr .inir 2
  | 6, 3 => .instr .otir 2
  | 7, 0 => .instr .lddr 2
  | 7, 1 => .instr .cpdr 2
  | 7, 2 => .instr .indr 2
  | 7, 3 => .instr .otdr 2
  | _, _ => .unimplemented b1 2

/-- The `ED` table (R132). -/
def decodeED (b1 : Byte) (nn : Word) : Decoded :=
  match fieldX b1 with
  | 1 => decodeED1 b1 nn
  | 2 => decodeED2 b1
  | _ => .unimplemented b1 2

/-- The index register a `DD` or `FD` byte selects (R120). -/
inductive Index where
  | ix | iy
  deriving DecidableEq, Repr

/-- The form for `IX` or the form for `IY`: the `FD` table is the `DD` table with `IY` for `IX` (R133, R134). -/
def Index.pick {α : Type} : Index → α → α → α
  | .ix, a, _ => a
  | .iy, _, a => a

/-- The `DD` and `FD` tables (R133), second bytes `0x00..0x3F`; `d` and `n` are the third and fourth bytes, `nn` the
word they make. -/
def decodeXY0 (k : Index) (b1 d n : Byte) (nn : Word) : Decoded :=
  match fieldY b1, fieldZ b1 with
  | 1, 1 => .instr (k.pick (.addIXPP .bc) (.addIYRR .bc)) 2
  | 3, 1 => .instr (k.pick (.addIXPP .de) (.addIYRR .de)) 2
  | 5, 1 => .instr (k.pick (.addIXPP .ix) (.addIYRR .iy)) 2
  | 7, 1 => .instr (k.pick (.addIXPP .sp) (.addIYRR .sp)) 2
  | 4, 1 => .instr (k.pick (.ldIXNN nn) (.ldIYNN nn)) 4
  | 4, 2 => .instr (k.pick (.ldAtNNIX nn) (.ldAtNNIY nn)) 4
  | 5, 2 => .instr (k.pick (.ldIXAtNN nn) (.ldIYAtNN nn)) 4
  | 4, 3 => .instr (k.pick .incIX .incIY) 2
  | 5, 3 => .instr (k.pick .decIX .decIY) 2
  | 6, 4 => .instr (k.pick (.incAtIX d) (.incAtIY d)) 3
  | 6, 5 => .instr (k.pick (.decAtIX d) (.decAtIY d)) 3
  | 6, 6 => .instr (k.pick (.ldAtIXN d n) (.ldAtIYN d n)) 4
  | _, _ => .unimplemented b1 2

/-- Second bytes `0x40..0x7F`: the loads from and to `(IX+d)`. -/
def decodeXY1 (k : Index) (b1 d : Byte) : Decoded :=
  match reg8OfCode (fieldY b1), reg8OfCode (fieldZ b1) with
  | some r, none => .instr (k.pick (.ldRAtIX r d) (.ldRAtIY r d)) 3
  | none, some src => .instr (k.pick (.ldAtIXR d src) (.ldAtIYR d src)) 3
  | _, _ => .unimplemented b1 2

/-- Second bytes `0x80..0xBF`: the accumulator operations on `(IX+d)`. -/
def decodeXY2 (k : Index) (b1 d : Byte) : Decoded :=
  match reg8OfCode (fieldZ b1) with
  | some _ => .unimplemented b1 2
  | none => .instr (k.pick (aluAtIX (fieldY b1) d) (aluAtIY (fieldY b1) d)) 3

/-- Second bytes `0xC0..0xFF`, less the `CB` escape. -/
def decodeXY3 (k : Index) (b1 : Byte) : Decoded :=
  match fieldY b1, fieldZ b1 with
  | 4, 1 => .instr (k.pick .popIX .popIY) 2
  | 4, 3 => .instr (k.pick .exAtSPIX .exAtSPIY) 2
  | 4, 5 => .instr (k.pick .pushIX .pushIY) 2
  | 5, 1 => .instr (k.pick .jpIX .jpIY) 2
  | 7, 1 => .instr (k.pick .ldSPIX .ldSPIY) 2
  | _, _ => .unimplemented b1 2

/-- The `DDCB` and `FDCB` tables (R134): `d` is the third byte, `b3` the fourth; a fourth byte whose low three bits
are not 6 is unimplemented. -/
def decodeXYCB (k : Index) (d b3 : Byte) : Decoded :=
  match reg8OfCode (fieldZ b3) with
  | some _ => .unimplemented b3 4
  | none =>
    match fieldX b3 with
    | 0 =>
      match k.pick (rotAtIX (fieldY b3) d) (rotAtIY (fieldY b3) d) with
      | some i => .instr i 4
      | none => .unimplemented b3 4
    | 1 => .instr (k.pick (.bitAtIX (fieldY b3) d) (.bitAtIY (fieldY b3) d)) 4
    | 2 => .instr (k.pick (.resAtIX (fieldY b3) d) (.resAtIY (fieldY b3) d)) 4
    | _ => .instr (k.pick (.setAtIX (fieldY b3) d) (.setAtIY (fieldY b3) d)) 4

/-- The `DD` and `FD` tables (R133) with their escape to `DDCB` and `FDCB`. -/
def decodeXY (k : Index) (b1 b2 b3 : Byte) : Decoded :=
  if b1 = 0xCB then decodeXYCB k b2 b3
  else
    match fieldX b1 with
    | 0 => decodeXY0 k b1 b2 b3 (mkWord b3 b2)
    | 1 => decodeXY1 k b1 b2
    | 2 => decodeXY2 k b1 b2
    | _ => decodeXY3 k b1

/-- The decoder on the four bytes at an instruction's address (R121): the longest instruction has four (R120). -/
def decode4 (b0 b1 b2 b3 : Byte) : Decoded :=
  if b0 = 0xCB then decodeCB b1
  else if b0 = 0xED then decodeED b1 (mkWord b3 b2)
  else if b0 = 0xDD then decodeXY .ix b1 b2 b3
  else if b0 = 0xFD then decodeXY .iy b1 b2 b3
  else
    match fieldX b0 with
    | 0 => decodeMain0 b0 b1 (mkWord b2 b1)
    | 1 => decodeMain1 b0
    | 2 => decodeMain2 b0
    | _ => decodeMain3 b0 b1 (mkWord b2 b1)

/-- Why a list of bytes gives no instruction. -/
inductive DecodeError where
  /-- The bytes match no row of the opcode table; `op` is the byte R121 reports (R128). -/
  | unimplementedOpcode (op : Byte)
  /-- The list ends inside the instruction. -/
  | truncated
  deriving DecidableEq, Repr

/-- The decoder on a list of bytes: the instruction and the bytes after it, or why there is none. -/
def decode (bytes : List Byte) : Except DecodeError (Instr × List Byte) :=
  match decode4 (bytes.getD 0 0) (bytes.getD 1 0) (bytes.getD 2 0) (bytes.getD 3 0) with
  | .instr i len => if bytes.length < len then .error .truncated else .ok (i, bytes.drop len)
  | .unimplemented op seen => if bytes.length < seen then .error .truncated else .error (.unimplementedOpcode op)

/-! ### The encoder -/

/-- R123's code of a register. -/
def Reg8.code : Reg8 → Nat
  | .b => 0
  | .c => 1
  | .d => 2
  | .e => 3
  | .h => 4
  | .l => 5
  | .a => 7

/-- R124's code in the `dd`/`ss` table. -/
def PairDD.code : PairDD → Nat
  | .bc => 0
  | .de => 1
  | .hl => 2
  | .sp => 3

/-- R124's code in the `qq` table. -/
def PairQQ.code : PairQQ → Nat
  | .bc => 0
  | .de => 1
  | .hl => 2
  | .af => 3

/-- R124's code in the `pp` table. -/
def PairPP.code : PairPP → Nat
  | .bc => 0
  | .de => 1
  | .ix => 2
  | .sp => 3

/-- R124's code in the `rr` table. -/
def PairRR.code : PairRR → Nat
  | .bc => 0
  | .de => 1
  | .iy => 2
  | .sp => 3

/-- R125's code of a condition. -/
def Cond.code : Cond → Nat
  | .nz => 0
  | .z => 1
  | .nc => 2
  | .c => 3
  | .po => 4
  | .pe => 5
  | .p => 6
  | .m => 7

/-- An opcode byte given as the sum of its fields. -/
def opcode (n : Nat) : Byte := BitVec.ofNat 8 n

/-- The bytes of an instruction, in address order, as its row of the opcode table writes them (R120; low byte of
`nn` first, R127; in the `DDCB` and `FDCB` forms `d` before the last opcode byte). -/
def encode : Instr → List Byte
  -- Load (40_load)
  | .ldRR r src => [opcode (0x40 + 8 * r.code + src.code)]
  | .ldRN r n => [opcode (0x06 + 8 * r.code), n]
  | .ldRAtHL r => [opcode (0x46 + 8 * r.code)]
  | .ldRAtIX r d => [0xDD, opcode (0x46 + 8 * r.code), d]
  | .ldRAtIY r d => [0xFD, opcode (0x46 + 8 * r.code), d]
  | .ldAtHLR src => [opcode (0x70 + src.code)]
  | .ldAtIXR d src => [0xDD, opcode (0x70 + src.code), d]
  | .ldAtIYR d src => [0xFD, opcode (0x70 + src.code), d]
  | .ldAtHLN n => [0x36, n]
  | .ldAtIXN d n => [0xDD, 0x36, d, n]
  | .ldAtIYN d n => [0xFD, 0x36, d, n]
  | .ldAAtBC => [0x0A]
  | .ldAAtDE => [0x1A]
  | .ldAAtNN nn => [0x3A, lowByte nn, highByte nn]
  | .ldAtBCA => [0x02]
  | .ldAtDEA => [0x12]
  | .ldAtNNA nn => [0x32, lowByte nn, highByte nn]
  | .ldAI => [0xED, 0x57]
  | .ldAR => [0xED, 0x5F]
  | .ldIA => [0xED, 0x47]
  | .ldRA => [0xED, 0x4F]
  | .ldDDNN dd nn => [opcode (0x01 + 16 * dd.code), lowByte nn, highByte nn]
  | .ldIXNN nn => [0xDD, 0x21, lowByte nn, highByte nn]
  | .ldIYNN nn => [0xFD, 0x21, lowByte nn, highByte nn]
  | .ldHLAtNN nn => [0x2A, lowByte nn, highByte nn]
  | .ldDDAtNN dd nn => [0xED, opcode (0x4B + 16 * dd.code), lowByte nn, highByte nn]
  | .ldIXAtNN nn => [0xDD, 0x2A, lowByte nn, highByte nn]
  | .ldIYAtNN nn => [0xFD, 0x2A, lowByte nn, highByte nn]
  | .ldAtNNHL nn => [0x22, lowByte nn, highByte nn]
  | .ldAtNNDD nn dd => [0xED, opcode (0x43 + 16 * dd.code), lowByte nn, highByte nn]
  | .ldAtNNIX nn => [0xDD, 0x22, lowByte nn, highByte nn]
  | .ldAtNNIY nn => [0xFD, 0x22, lowByte nn, highByte nn]
  | .ldSPHL => [0xF9]
  | .ldSPIX => [0xDD, 0xF9]
  | .ldSPIY => [0xFD, 0xF9]
  | .pushQQ qq => [opcode (0xC5 + 16 * qq.code)]
  | .pushIX => [0xDD, 0xE5]
  | .pushIY => [0xFD, 0xE5]
  | .popQQ qq => [opcode (0xC1 + 16 * qq.code)]
  | .popIX => [0xDD, 0xE1]
  | .popIY => [0xFD, 0xE1]
  -- 8-bit arithmetic and logic (41_arith8_logic)
  | .addR src => [opcode (0x80 + src.code)]
  | .addN n => [0xC6, n]
  | .addAtHL => [0x86]
  | .addAtIX d => [0xDD, 0x86, d]
  | .addAtIY d => [0xFD, 0x86, d]
  | .adcR src => [opcode (0x88 + src.code)]
  | .adcN n => [0xCE, n]
  | .adcAtHL => [0x8E]
  | .adcAtIX d => [0xDD, 0x8E, d]
  | .adcAtIY d => [0xFD, 0x8E, d]
  | .subR src => [opcode (0x90 + src.code)]
  | .subN n => [0xD6, n]
  | .subAtHL => [0x96]
  | .subAtIX d => [0xDD, 0x96, d]
  | .subAtIY d => [0xFD, 0x96, d]
  | .sbcR src => [opcode (0x98 + src.code)]
  | .sbcN n => [0xDE, n]
  | .sbcAtHL => [0x9E]
  | .sbcAtIX d => [0xDD, 0x9E, d]
  | .sbcAtIY d => [0xFD, 0x9E, d]
  | .andR src => [opcode (0xA0 + src.code)]
  | .andN n => [0xE6, n]
  | .andAtHL => [0xA6]
  | .andAtIX d => [0xDD, 0xA6, d]
  | .andAtIY d => [0xFD, 0xA6, d]
  | .xorR src => [opcode (0xA8 + src.code)]
  | .xorN n => [0xEE, n]
  | .xorAtHL => [0xAE]
  | .xorAtIX d => [0xDD, 0xAE, d]
  | .xorAtIY d => [0xFD, 0xAE, d]
  | .orR src => [opcode (0xB0 + src.code)]
  | .orN n => [0xF6, n]
  | .orAtHL => [0xB6]
  | .orAtIX d => [0xDD, 0xB6, d]
  | .orAtIY d => [0xFD, 0xB6, d]
  | .cpR src => [opcode (0xB8 + src.code)]
  | .cpN n => [0xFE, n]
  | .cpAtHL => [0xBE]
  | .cpAtIX d => [0xDD, 0xBE, d]
  | .cpAtIY d => [0xFD, 0xBE, d]
  | .incR r => [opcode (0x04 + 8 * r.code)]
  | .incAtHL => [0x34]
  | .incAtIX d => [0xDD, 0x34, d]
  | .incAtIY d => [0xFD, 0x34, d]
  | .decR r => [opcode (0x05 + 8 * r.code)]
  | .decAtHL => [0x35]
  | .decAtIX d => [0xDD, 0x35, d]
  | .decAtIY d => [0xFD, 0x35, d]
  | .daa => [0x27]
  | .cpl => [0x2F]
  | .neg => [0xED, 0x44]
  | .ccf => [0x3F]
  | .scf => [0x37]
  -- 16-bit arithmetic (42_arith16)
  | .addHLSS ss => [opcode (0x09 + 16 * ss.code)]
  | .adcHLSS ss => [0xED, opcode (0x4A + 16 * ss.code)]
  | .sbcHLSS ss => [0xED, opcode (0x42 + 16 * ss.code)]
  | .addIXPP pp => [0xDD, opcode (0x09 + 16 * pp.code)]
  | .addIYRR rr => [0xFD, opcode (0x09 + 16 * rr.code)]
  | .incSS ss => [opcode (0x03 + 16 * ss.code)]
  | .incIX => [0xDD, 0x23]
  | .incIY => [0xFD, 0x23]
  | .decSS ss => [opcode (0x0B + 16 * ss.code)]
  | .decIX => [0xDD, 0x2B]
  | .decIY => [0xFD, 0x2B]
  -- Rotate and shift (43_rotate_shift)
  | .rlca => [0x07]
  | .rla => [0x17]
  | .rrca => [0x0F]
  | .rra => [0x1F]
  | .rlcR r => [0xCB, opcode (0x00 + r.code)]
  | .rlcAtHL => [0xCB, 0x06]
  | .rlcAtIX d => [0xDD, 0xCB, d, 0x06]
  | .rlcAtIY d => [0xFD, 0xCB, d, 0x06]
  | .rrcR r => [0xCB, opcode (0x08 + r.code)]
  | .rrcAtHL => [0xCB, 0x0E]
  | .rrcAtIX d => [0xDD, 0xCB, d, 0x0E]
  | .rrcAtIY d => [0xFD, 0xCB, d, 0x0E]
  | .rlR r => [0xCB, opcode (0x10 + r.code)]
  | .rlAtHL => [0xCB, 0x16]
  | .rlAtIX d => [0xDD, 0xCB, d, 0x16]
  | .rlAtIY d => [0xFD, 0xCB, d, 0x16]
  | .rrR r => [0xCB, opcode (0x18 + r.code)]
  | .rrAtHL => [0xCB, 0x1E]
  | .rrAtIX d => [0xDD, 0xCB, d, 0x1E]
  | .rrAtIY d => [0xFD, 0xCB, d, 0x1E]
  | .slaR r => [0xCB, opcode (0x20 + r.code)]
  | .slaAtHL => [0xCB, 0x26]
  | .slaAtIX d => [0xDD, 0xCB, d, 0x26]
  | .slaAtIY d => [0xFD, 0xCB, d, 0x26]
  | .sraR r => [0xCB, opcode (0x28 + r.code)]
  | .sraAtHL => [0xCB, 0x2E]
  | .sraAtIX d => [0xDD, 0xCB, d, 0x2E]
  | .sraAtIY d => [0xFD, 0xCB, d, 0x2E]
  | .srlR r => [0xCB, opcode (0x38 + r.code)]
  | .srlAtHL => [0xCB, 0x3E]
  | .srlAtIX d => [0xDD, 0xCB, d, 0x3E]
  | .srlAtIY d => [0xFD, 0xCB, d, 0x3E]
  | .rld => [0xED, 0x6F]
  | .rrd => [0xED, 0x67]
  -- Bit test, set, reset (44_bit)
  | .bitR b r => [0xCB, opcode (0x40 + 8 * b + r.code)]
  | .bitAtHL b => [0xCB, opcode (0x46 + 8 * b)]
  | .bitAtIX b d => [0xDD, 0xCB, d, opcode (0x46 + 8 * b)]
  | .bitAtIY b d => [0xFD, 0xCB, d, opcode (0x46 + 8 * b)]
  | .setR b r => [0xCB, opcode (0xC0 + 8 * b + r.code)]
  | .setAtHL b => [0xCB, opcode (0xC6 + 8 * b)]
  | .setAtIX b d => [0xDD, 0xCB, d, opcode (0xC6 + 8 * b)]
  | .setAtIY b d => [0xFD, 0xCB, d, opcode (0xC6 + 8 * b)]
  | .resR b r => [0xCB, opcode (0x80 + 8 * b + r.code)]
  | .resAtHL b => [0xCB, opcode (0x86 + 8 * b)]
  | .resAtIX b d => [0xDD, 0xCB, d, opcode (0x86 + 8 * b)]
  | .resAtIY b d => [0xFD, 0xCB, d, opcode (0x86 + 8 * b)]
  -- Jump, call, return, restart (45_jump_call_ret)
  | .jpNN nn => [0xC3, lowByte nn, highByte nn]
  | .jpCcNN cc nn => [opcode (0xC2 + 8 * cc.code), lowByte nn, highByte nn]
  | .jrE e => [0x18, e]
  | .jrCE e => [0x38, e]
  | .jrNcE e => [0x30, e]
  | .jrZE e => [0x28, e]
  | .jrNzE e => [0x20, e]
  | .jpHL => [0xE9]
  | .jpIX => [0xDD, 0xE9]
  | .jpIY => [0xFD, 0xE9]
  | .djnzE e => [0x10, e]
  | .callNN nn => [0xCD, lowByte nn, highByte nn]
  | .callCcNN cc nn => [opcode (0xC4 + 8 * cc.code), lowByte nn, highByte nn]
  | .ret => [0xC9]
  | .retCc cc => [opcode (0xC0 + 8 * cc.code)]
  | .reti => [0xED, 0x4D]
  | .retn => [0xED, 0x45]
  | .rst t => [opcode (0xC7 + 8 * t)]
  -- Input and output (46_io)
  | .inAPortN n => [0xDB, n]
  | .inRPortC r => [0xED, opcode (0x40 + 8 * r.code)]
  | .ini => [0xED, 0xA2]
  | .inir => [0xED, 0xB2]
  | .ind => [0xED, 0xAA]
  | .indr => [0xED, 0xBA]
  | .outPortNA n => [0xD3, n]
  | .outPortCR src => [0xED, opcode (0x41 + 8 * src.code)]
  | .outi => [0xED, 0xA3]
  | .otir => [0xED, 0xB3]
  | .outd => [0xED, 0xAB]
  | .otdr => [0xED, 0xBB]
  -- Block transfer and search (47_block_transfer_search)
  | .ldi => [0xED, 0xA0]
  | .ldir => [0xED, 0xB0]
  | .ldd => [0xED, 0xA8]
  | .lddr => [0xED, 0xB8]
  | .cpi => [0xED, 0xA1]
  | .cpir => [0xED, 0xB1]
  | .cpd => [0xED, 0xA9]
  | .cpdr => [0xED, 0xB9]
  -- Exchange and CPU control (48_exchange_cpu_control)
  | .exDEHL => [0xEB]
  | .exAFAF => [0x08]
  | .exx => [0xD9]
  | .exAtSPHL => [0xE3]
  | .exAtSPIX => [0xDD, 0xE3]
  | .exAtSPIY => [0xFD, 0xE3]
  | .nop => [0x00]
  | .halt => [0x76]
  | .di => [0xF3]
  | .ei => [0xFB]
  | .im0 => [0xED, 0x46]
  | .im1 => [0xED, 0x56]
  | .im2 => [0xED, 0x5E]

/-- The length of an instruction in bytes (R120, R135). -/
def Instr.length (i : Instr) : Nat := (encode i).length

/-- The opcode fetches of an instruction (10 R29): two when it begins with a prefix byte, else one. -/
def Instr.opcodeFetches (i : Instr) : Nat :=
  match encode i with
  | b0 :: _ => if b0 = 0xCB ∨ b0 = 0xDD ∨ b0 = 0xED ∨ b0 = 0xFD then 2 else 1
  | [] => 1

/-! ### A row's word, as the opcode table numbers its bits -/

/-- The low `k` bytes of `w`, the least significant first. -/
def bytesLowFirst : Nat → Nat → List Byte
  | 0, _ => []
  | k + 1, w => BitVec.ofNat 8 w :: bytesLowFirst k (w / 256)

/-- How many bytes the decoder takes from the first four of a list (0 where it refuses them). -/
def decodedLength (bytes : List Byte) : Nat :=
  match decode4 (bytes.getD 0 0) (bytes.getD 1 0) (bytes.getD 2 0) (bytes.getD 3 0) with
  | .instr _ len => len
  | .unimplemented _ _ => 0

/-- The four bytes, in address order, of the instruction whose `nbits` bits are `w`, every byte past `nbits` zero.
spec/opcode_table.json numbers a row's `fixed` bits with the FIRST byte the most significant; where that order
gives no instruction of at least `nbits` bits, the first byte is taken as the least significant (log 14). -/
def tableBytes (nbits w : Nat) : List Byte :=
  let k := nbits / 8
  let low := bytesLowFirst k w
  let tableOrder := low.reverse ++ List.replicate (4 - k) 0
  let wordOrder := low ++ List.replicate (4 - k) 0
  if k ≤ decodedLength tableOrder then tableOrder
  else if k ≤ decodedLength wordOrder then wordOrder
  else tableOrder

/-- The instruction the decoder reads from a row's word (log 14). -/
def decodeTableWord (nbits w : Nat) : Option Instr :=
  match decode (tableBytes nbits w) with
  | .ok (i, _) => some i
  | .error _ => none

end Sys2Proof
end

