-- ==== Sys2Proof/Machine/State.lean ====
section
/-! DEFINITION. The state of the machine: every piece of state of 10_state and of the dispatcher, and its value at
power-on and reset (10 R60, 70 R650). Plain data. -/

namespace Sys2Proof.Machine

/-- The six documented flags of `F` (10 R26). -/
structure DocFlags where
  /-- `F[7]`. -/
  s  : Bool
  /-- `F[6]`. -/
  z  : Bool
  /-- `F[4]`. -/
  h  : Bool
  /-- `F[2]`, overflow or parity. -/
  pv : Bool
  /-- `F[1]`. -/
  n  : Bool
  /-- `F[0]`. -/
  c  : Bool
  deriving DecidableEq, Repr, Inhabited

/-- The register `F`, bit by bit: the documented flags and the two storage bits of R27. `Flags.toByte` and
`Flags.ofByte` are its byte (log 11). -/
structure Flags extends DocFlags where
  /-- `F[5]`. -/
  y : Bool
  /-- `F[3]`. -/
  x : Bool
  deriving DecidableEq, Repr, Inhabited

/-- Eight 8-bit registers: the main set (10 R20) or the shadow set (R22). -/
structure RegSet where
  a : Byte
  f : Flags
  b : Byte
  c : Byte
  d : Byte
  e : Byte
  h : Byte
  l : Byte
  deriving DecidableEq, Repr, Inhabited

/-- `IM` (10 R31). -/
inductive IntMode where
  | im0 | im1 | im2
  deriving DecidableEq, Repr

/-- `HSTATE` (10 R36, 49 R510). -/
inductive HState where
  | idle | needsInput | halted
  deriving DecidableEq, Repr

/-- A non-empty `REPORT` (10 R41). -/
inductive HaltReport where
  | haltExecuted
  | unimplementedOpcode (op : Byte) (pc : Word)
  deriving DecidableEq, Repr

/-- The machine's state. INVENTORY.md lists each field with its rule and its reset value. -/
structure State where
  /-- `A F B C D E H L` (R20, R21). -/
  main            : RegSet
  /-- `A' F' B' C' D' E' H' L'` (R22). -/
  shadow          : RegSet
  /-- `IX` (R23). -/
  ix              : Word
  /-- `IY` (R23). -/
  iy              : Word
  /-- `SP` (R24). -/
  sp              : Word
  /-- `PC` (R25). -/
  pc              : Word
  /-- `I` (R28). -/
  iReg            : Byte
  /-- `R` (R29). -/
  rReg            : Byte
  /-- `IFF1` (R30). -/
  iff1            : Bool
  /-- `IFF2` (R30). -/
  iff2            : Bool
  /-- `IM` (R31). -/
  im              : IntMode
  /-- `halted` (R32). -/
  halted          : Bool
  /-- `BANK` (R34). -/
  bank            : Byte
  /-- `INITMASK` (R35). -/
  initMask        : BitVec 16
  /-- `rom[0..524287]` (20 R70). -/
  rom             : Memory
  /-- `ram[0..524287]` (20 R70). -/
  ram             : Memory
  /-- `HSTATE` (R36). -/
  hstate          : HState
  /-- `INQ`, oldest byte first (R37). -/
  inq             : List Byte
  /-- `OUTQ`, oldest byte first (R38). -/
  outq            : List Byte
  /-- `BlockingAllowed` (R39). -/
  blockingAllowed : Bool
  /-- `BOOTING` (R40). -/
  booting         : Bool
  /-- `REPORT` (R41). -/
  report          : Option HaltReport
  /-- `ICOUNT` (R42); unbounded, log 20. -/
  icount          : Nat
  /-- The Disk Store's unit table (R43, 49 R560). -/
  units           : Vector DiskUnit 16
  /-- The model's own counter, not the spec's: how many `draw()` values have been taken (log 17). -/
  draws           : Nat
  deriving DecidableEq, Repr

/-- The reasons a step can fault. There is none: every event of 60 R600 is a next state or a refusal. -/
inductive Fault where
  deriving DecidableEq, Repr

/-- The reasons a step can be refused. -/
inductive Refusal where
  /-- Raised by `exec` for an instruction without a meaning, by its mnemonic; no arm does. Safe. -/
  | notModelled (mnemonic : String)
  /-- `OUT` to port `0xED`: `refuse`, 49 R502, 60 R605. Raised by `portOut`. Safe. -/
  | bankCallPort
  /-- `OUT` to port `0xEE`: `refuse`, 49 R502, 60 R605. Raised by `portOut`. Safe. -/
  | signalPort
  /-- HBIOS `SYSBOOT`: `refuse`, 49 R548, 60 R605. Raised by `hbiosDispatch`. Safe. -/
  | sysBoot
  /-- Bank copy with `BC = 0`: `refuse`, 49 R555, 60 R605. Raised by `bankCopy`. Safe. -/
  | bankCopyZeroLength
  deriving DecidableEq, Repr

/-- What an instruction, and a step, answers. -/
abbrev Result := Host.Outcome State Fault Refusal

/-- An absent unit: `data` empty, the other fields as `detach` leaves them (49 R561). -/
def DiskUnit.absent : DiskUnit :=
  { present := false, data := { size := 0, bytes := { cells := [] } }, extraSlices := 0, position := 0,
    dirty := false }

/-- Power-on (70 R650, 10 R60): what the spec leaves unspecified there, or leaves to the configuration, is an argument
(log 24): the registers the spec draws, both memories, `BlockingAllowed` and the unit table `MD_UNITS` makes. -/
def State.powerOn (main shadow : RegSet) (ix iy sp : Word) (rom ram : Memory) (blockingAllowed : Bool)
    (units : Vector DiskUnit 16) : State :=
  { main := main, shadow := shadow, ix := ix, iy := iy, sp := sp,
    pc := 0x0000, iReg := 0x00, rReg := 0x00, iff1 := false, iff2 := false, im := .im0, halted := false,
    bank := 0x00, initMask := 0x0000, rom := rom, ram := ram, hstate := .idle, inq := [], outq := [],
    blockingAllowed := blockingAllowed, booting := false, report := none, icount := 0, units := units, draws := 0 }

/-- The value `State.reset` gives a register set the spec draws at power-on: zero (log 1). -/
def RegSet.zero : RegSet :=
  { a := 0, f := { s := false, z := false, h := false, pv := false, n := false, c := false, y := false, x := false },
    b := 0, c := 0, d := 0, e := 0, h := 0, l := 0 }

/-- The machine right after reset: power-on with the values logs 1, 2, 8 and 9 name for what the spec leaves open. -/
def State.reset : State :=
  State.powerOn RegSet.zero RegSet.zero 0 0 0 { cells := [] } { cells := [] } false
    (Vector.replicate 16 DiskUnit.absent)

end Sys2Proof.Machine
end

