-- ==== Sys2Proof/Machine/Ops.lean ====
section
/-! DEFINITION. The named operations over memory, the window, the banks and the stack (20_memory), what every
executed instruction does to PC, R and ICOUNT (10 R25, R29, R42), and the events of 60_exceptions. -/

namespace Sys2Proof.Machine

/-! ### One physical memory -/

/-- What an address with no listed byte reads as (log 2). -/
def Memory.fill : Byte := 0x00

/-- The byte the list gives address `a`. -/
def readCells (a : Nat) : List Host.Cell → Byte
  | [] => Memory.fill
  | (k, v) :: rest => if k = a then v else readCells a rest

/-- The byte at offset `a`. -/
def Memory.read (m : Memory) (a : Nat) : Byte := readCells a m.cells

/-- The list without any entry for `a`. -/
def eraseCell (a : Nat) : List Host.Cell → List Host.Cell
  | [] => []
  | (k, v) :: rest => if k = a then eraseCell a rest else (k, v) :: eraseCell a rest

/-- The list with `(a, v)` put before the first larger address. -/
def insertCell (a : Nat) (v : Byte) : List Host.Cell → List Host.Cell
  | [] => [(a, v)]
  | (k, w) :: rest => if a < k then (a, v) :: (k, w) :: rest else (k, w) :: insertCell a v rest

/-- The memory with `v` at offset `a`, in canonical form again. -/
def Memory.write (m : Memory) (a : Nat) (v : Byte) : Memory :=
  if v = Memory.fill then { cells := eraseCell a m.cells }
  else { cells := insertCell a v (eraseCell a m.cells) }

/-- The memory every byte of which reads as `Memory.fill`. -/
def Memory.blank : Memory := { cells := [] }

/-- The canonical form over `n` bytes: addresses strictly rising and below `n`, no byte equal to `Memory.fill`. -/
abbrev Memory.wfBelow (n : Nat) (m : Memory) : Prop :=
  m.cells.Pairwise (fun x y => x.1 < y.1) ∧ ∀ c ∈ m.cells, c.1 < n ∧ c.2 ≠ Memory.fill

/-- The canonical form of one of the two physical memories (20 R70). -/
abbrev Memory.wf (m : Memory) : Prop := m.wfBelow Config.physSize

/-- The memory with a list of bytes written at rising offsets from `a`. -/
def Memory.writeList (m : Memory) (a : Nat) : List Byte → Memory
  | [] => m
  | v :: rest => (m.write a v).writeList (a + 1) rest

/-- `k` bytes from offset `a` on. -/
def Memory.readList (m : Memory) (a : Nat) : Nat → List Byte
  | 0 => []
  | k + 1 => m.read a :: m.readList (a + 1) k

/-! ### The window (20 R71 to R73, R78) -/

/-- A byte of physical memory: an array and an offset (R70). -/
inductive Phys where
  | rom (off : Nat)
  | ram (off : Nat)
  deriving DecidableEq, Repr

/-- The bank index `b[3:0]` of a bank byte (R34). -/
def bankIndex (b : Byte) : Nat := b.toNat % 16

/-- `resolve(b, a)` (R71). -/
def resolve (b : Byte) (a : Word) : Phys :=
  if 0x8000 ≤ a.toNat then .ram (0x0F * Config.bankSize + (a.toNat - 0x8000))
  else if b.getLsbD 7 then .ram (bankIndex b * Config.bankSize + a.toNat)
  else .rom (bankIndex b * Config.bankSize + a.toNat)

/-- `read_bank(b, a)` (R73). -/
def State.readBank (s : State) (b : Byte) (a : Word) : Byte :=
  match resolve b a with
  | .rom k => s.rom.read k
  | .ram k => s.ram.read k

/-- `ram` after a store of `v` at a physical byte: a store to ROM is discarded (R74). -/
def storeAt (p : Phys) (v : Byte) (ram : Memory) : Memory :=
  match p with
  | .rom _ => ram
  | .ram k => ram.write k v

/-- `write_bank(b, a, v)` (R73). -/
def State.writeBank (s : State) (b : Byte) (a : Word) (v : Byte) : State :=
  { s with ram := storeAt (resolve b a) v s.ram }

/-- `fetch(a)` (R72); `MemRead(a, 1)` (00 R11). -/
def State.fetch (s : State) (a : Word) : Byte := s.readBank s.bank a

/-- `store(a, v)` (R72); `MemWrite(a, 1, v)` (00 R11). -/
def State.store (s : State) (a : Word) (v : Byte) : State := s.writeBank s.bank a v

/-- `MemRead(a, 2)`: low byte at `a`, high byte at `a + 1` (R79). -/
def State.fetch16 (s : State) (a : Word) : Word := mkWord (s.fetch (a + 1)) (s.fetch a)

/-- `MemWrite(a, 2, v)`: low byte at `a`, then high byte at `a + 1` (R79). -/
def State.store16 (s : State) (a : Word) (v : Word) : State := (s.store a (lowByte v)).store (a + 1) (highByte v)

/-- `Push16(v)` (R82): high byte at `SP - 1`, then low byte at `SP - 2`. -/
def State.push16 (s : State) (v : Word) : State :=
  { (s.store (s.sp - 1) (highByte v)).store (s.sp - 2) (lowByte v) with sp := s.sp - 2 }

/-- What `Pop16()` returns (R82): low byte from `SP`, high byte from `SP + 1`. -/
def State.top16 (s : State) : Word := s.fetch16 s.sp

/-- What `Pop16()` does to `SP` (R82). -/
def State.dropTop (s : State) : State := { s with sp := s.sp + 2 }

/-- The value `base + sext_8(d)`, mod 65536 (R78; 30 R127): an indexed address, a relative jump target. -/
def addSigned (base : Word) (d : Byte) : Word := base + d.signExtend 16

/-! ### Banks (20 R75, R76) -/

/-- `ram` with the first 512 bytes of `rom` copied to offset `off` on (R75). -/
@[irreducible] def headCopied (rom ram : Memory) (off : Nat) : Memory :=
  ram.writeList off (rom.readList 0 Config.headSize)

/-- The first 512 bytes of `rom` copied to `ram` (R75; 70 R651, R653). -/
def State.copyHead (s : State) (off : Nat) : State := { s with ram := headCopied s.rom s.ram off }

/-- The bit of `INITMASK` for bank byte `b` (R35). -/
def initBit (b : Byte) : BitVec 16 := 1#16 <<< bankIndex b

/-- Whether `select_bank(b)` is the first select of a RAM bank (R75). -/
def State.firstSelect (s : State) (b : Byte) : Bool := b.getLsbD 7 && !s.initMask.getLsbD (bankIndex b)

/-- `select_bank(b)` (R75): on the first select of a RAM bank the head of `rom` is copied into it. -/
def State.selectBank (s : State) (b : Byte) : State :=
  { s with
    ram := if s.firstSelect b then headCopied s.rom s.ram (bankIndex b * Config.bankSize) else s.ram
    initMask := if s.firstSelect b then s.initMask ||| initBit b else s.initMask
    bank := b }

/-- `clear_ram()` (R76): every byte `0x00` (`Memory.blank`), `INITMASK` zero. -/
def State.clearRam (s : State) : State := { s with ram := Memory.blank, initMask := 0 }

/-! ### What every executed instruction does -/

/-- `R[6:0]` stepped `k` times, `R[7]` kept (10 R29). -/
def stepR (r : Byte) (k : Nat) : Byte := BitVec.ofNat 8 (r.toNat / 128 * 128 + (r.toNat % 128 + k) % 128)

/-- The state after an instruction of `len` bytes with `m1` opcode fetches has been fetched, and counted: `PC` at
`pcn` (R25), `R` stepped (R29), `ICOUNT` up by one (R42). -/
def State.retire (s : State) (len m1 : Nat) : State :=
  { s with pc := s.pc + BitVec.ofNat 16 len, rReg := stepR s.rReg m1, icount := s.icount + 1 }

/-- The bytes at `PC` and the three after it, fetched through the window (20 R83) and decoded (30 R121). -/
def State.decodeAtPC (s : State) : Decoded :=
  decode4 (s.fetch s.pc) (s.fetch (s.pc + 1)) (s.fetch (s.pc + 2)) (s.fetch (s.pc + 3))

/-- A byte put at a window address whatever array it resolves to: the outside world's loading, no operation of the
machine. -/
def State.plant (s : State) (a : Word) (v : Byte) : State :=
  match resolve s.bank a with
  | .rom k => { s with rom := s.rom.write k v }
  | .ram k => { s with ram := s.ram.write k v }

/-- A list of bytes put at rising window addresses from `a` on. -/
def State.plantList (s : State) (a : Word) : List Byte → State
  | [] => s
  | v :: rest => (s.plant a v).plantList (a + 1) rest

/-! ### The events (60_exceptions): this machine's exceptions. None vectors, so there is no return (R607). -/

/-- `raise Unimplemented(op, pc0)` (R601): every register as before the step, the engine halted and reported. -/
def State.raiseUnimplemented (s : State) (op : Byte) : State :=
  { s with halted := true, report := some (.unimplementedOpcode op s.pc), hstate := .halted }

/-- `HaltExecuted` (R602; 48 R447), on the state after the instruction's own fetch. -/
def State.raiseHalt (s : State) : State :=
  { s with halted := true, report := some .haltExecuted, hstate := .halted }

/-- The annulled step of `CIOIN` on an empty ring (49 R521; 60 R603): the state before the step, `HSTATE` alone
changed, and not even that where blocking is allowed. -/
def State.annul (before : State) : State :=
  if before.blockingAllowed then before else { before with hstate := .needsInput }

end Sys2Proof.Machine
end

