-- ==== Sys2Proof/Machine/Operands.lean ====
section
/-! DEFINITION. The operand forms: registers, pairs, conditions, memory operands (30 R123 to R127; 10 R21, R47). -/

namespace Sys2Proof.Machine

/-! ### 8-bit registers (30 R123) -/

/-- The register a code names. -/
def RegSet.get (x : RegSet) : Reg8 → Byte
  | .b => x.b
  | .c => x.c
  | .d => x.d
  | .e => x.e
  | .h => x.h
  | .l => x.l
  | .a => x.a

/-- The set with one register written. -/
def RegSet.set (x : RegSet) (r : Reg8) (v : Byte) : RegSet :=
  match r with
  | .b => { x with b := v }
  | .c => { x with c := v }
  | .d => { x with d := v }
  | .e => { x with e := v }
  | .h => { x with h := v }
  | .l => { x with l := v }
  | .a => { x with a := v }

/-- `r[c]`. -/
def State.reg (s : State) (r : Reg8) : Byte := s.main.get r

/-- `r[c] <- v`. -/
def State.setReg (s : State) (r : Reg8) (v : Byte) : State := { s with main := s.main.set r v }

/-! ### Pairs: aliases of two halves, the first-named bits 15:8 (10 R21) -/

/-- `BC`. -/
def State.bc (s : State) : Word := mkWord s.main.b s.main.c

/-- `DE`. -/
def State.de (s : State) : Word := mkWord s.main.d s.main.e

/-- `HL`. -/
def State.hl (s : State) : Word := mkWord s.main.h s.main.l

/-- `BC <- v`. -/
def State.setBC (s : State) (v : Word) : State :=
  { s with main := { s.main with b := highByte v, c := lowByte v } }

/-- `DE <- v`. -/
def State.setDE (s : State) (v : Word) : State :=
  { s with main := { s.main with d := highByte v, e := lowByte v } }

/-- `HL <- v`. -/
def State.setHL (s : State) (v : Word) : State :=
  { s with main := { s.main with h := highByte v, l := lowByte v } }

/-- `F` as a byte (10 R26). -/
def Flags.toByte (f : Flags) : Byte :=
  BitVec.ofNat 8 (128 * f.s.toNat + 64 * f.z.toNat + 32 * f.y.toNat + 16 * f.h.toNat + 8 * f.x.toNat
    + 4 * f.pv.toNat + 2 * f.n.toNat + f.c.toNat)

/-- The flags a byte holds (10 R26). -/
def Flags.ofByte (v : Byte) : Flags :=
  { s := v.getLsbD 7, z := v.getLsbD 6, y := v.getLsbD 5, h := v.getLsbD 4, x := v.getLsbD 3, pv := v.getLsbD 2,
    n := v.getLsbD 1, c := v.getLsbD 0 }

/-- `AF`. -/
def State.af (s : State) : Word := mkWord s.main.a s.main.f.toByte

/-- `AF <- v`: all eight bits of `F` (40 R238). -/
def State.setAF (s : State) (v : Word) : State :=
  { s with main := { s.main with a := highByte v, f := Flags.ofByte (lowByte v) } }

/-- A pair of the `dd`/`ss` table (30 R124). -/
def State.pairDD (s : State) : PairDD → Word
  | .bc => s.bc
  | .de => s.de
  | .hl => s.hl
  | .sp => s.sp

/-- A pair of the `dd`/`ss` table, written. -/
def State.setPairDD (s : State) (dd : PairDD) (v : Word) : State :=
  match dd with
  | .bc => s.setBC v
  | .de => s.setDE v
  | .hl => s.setHL v
  | .sp => { s with sp := v }

/-- A pair of the `qq` table (30 R124). -/
def State.pairQQ (s : State) : PairQQ → Word
  | .bc => s.bc
  | .de => s.de
  | .hl => s.hl
  | .af => s.af

/-- A pair of the `qq` table, written. -/
def State.setPairQQ (s : State) (qq : PairQQ) (v : Word) : State :=
  match qq with
  | .bc => s.setBC v
  | .de => s.setDE v
  | .hl => s.setHL v
  | .af => s.setAF v

/-- A pair of the `pp` table (30 R124). -/
def State.pairPP (s : State) : PairPP → Word
  | .bc => s.bc
  | .de => s.de
  | .ix => s.ix
  | .sp => s.sp

/-- A pair of the `rr` table (30 R124). -/
def State.pairRR (s : State) : PairRR → Word
  | .bc => s.bc
  | .de => s.de
  | .iy => s.iy
  | .sp => s.sp

/-! ### Memory operands: the address of `(IX+d)` and `(IY+d)` (10 R23, 30 R127) -/

/-- `(IX + sext_8(d)) mod 65536`. -/
def State.atIX (s : State) (d : Byte) : Word := addSigned s.ix d

/-- `(IY + sext_8(d)) mod 65536`. -/
def State.atIY (s : State) (d : Byte) : Word := addSigned s.iy d

/-! ### Conditions (10 R47) -/

/-- Whether condition `cc` holds of the flags. -/
def condHolds (f : Flags) : Cond → Bool
  | .nz => !f.z
  | .z => f.z
  | .nc => !f.c
  | .c => f.c
  | .po => !f.pv
  | .pe => f.pv
  | .p => !f.s
  | .m => f.s

end Sys2Proof.Machine
end

