-- ==== Sys2Proof/Machine/Flags.lean ====
section
/-! DEFINITION. The flag computations (41 R250 to R252, R270; 42 R300 to R302; 43 R320 to R331) and the one way an
instruction writes `F` (10 R27). -/

namespace Sys2Proof.Machine

/-! ### Writing `F` -/

/-- The flags the next `draw()` gives (10 R27; `Config.freeFlags`): each open flag takes its own bit of it. -/
def State.drawn (s : State) : Flags := Flags.ofByte (Config.freeFlags s.draws)

/-- The documented flags written, `F[5]` and `F[3]` left to the draw (10 R27). -/
def State.setFlags (s : State) (f : DocFlags) : State :=
  { s with main := { s.main with f := { toDocFlags := f, y := s.drawn.y, x := s.drawn.x } }, draws := s.draws + 1 }

/-- The documented flags as they stand. -/
def State.doc (s : State) : DocFlags := s.main.f.toDocFlags

/-! ### 8-bit arithmetic -/

/-- An 8-bit result and the flags that go with it. -/
structure Alu8 where
  res   : Byte
  flags : DocFlags
  deriving DecidableEq, Repr

/-- `add8(a, b, cin)` (41 R250). -/
def add8 (a b : Byte) (cin : Bool) : Alu8 :=
  let sum : Nat := a.toNat + b.toNat + cin.toNat
  let res : Byte := BitVec.ofNat 8 sum
  { res := res
    flags :=
      { s := res.getLsbD 7
        z := res == 0
        h := decide (a.toNat % 16 + b.toNat % 16 + cin.toNat > 15)
        pv := a.getLsbD 7 == b.getLsbD 7 && res.getLsbD 7 != a.getLsbD 7
        n := false
        c := decide (sum > 255) } }

/-- `sub8(a, b, cin)` (41 R251). -/
def sub8 (a b : Byte) (cin : Bool) : Alu8 :=
  let diff : Int := (a.toNat : Int) - b.toNat - cin.toNat
  let res : Byte := BitVec.ofInt 8 diff
  { res := res
    flags :=
      { s := res.getLsbD 7
        z := res == 0
        h := decide (((a.toNat % 16 : Nat) : Int) - (b.toNat % 16 : Nat) - cin.toNat < 0)
        pv := a.getLsbD 7 != b.getLsbD 7 && res.getLsbD 7 != a.getLsbD 7
        n := true
        c := decide (diff < 0) } }

/-! ### Logic -/

/-- How many of the low `k` bits are 1. -/
def onesBelow (v : Byte) : Nat → Nat
  | 0 => 0
  | k + 1 => onesBelow v k + (v.getLsbD k).toNat

/-- `parity(v)` (00 R10, 41 R252): an even number of 1 bits. -/
def parity (v : Byte) : Bool := onesBelow v 8 % 2 == 0

/-- `logic8(res, h)` (41 R252). -/
def logic8 (res : Byte) (h : Bool) : DocFlags :=
  { s := res.getLsbD 7, z := res == 0, h := h, pv := parity res, n := false, c := false }

/-- `S`, `Z` and parity of a byte, `H` and `N` clear, the given carry: the rotates (43 R324), `RLD` and `RRD` (R332),
`IN r,(C)` (46 R392). -/
def shiftFlags (res : Byte) (c : Bool) : DocFlags :=
  { s := res.getLsbD 7, z := res == 0, h := false, pv := parity res, n := false, c := c }

/-! ### `DAA` -/

/-- The decimal adjustment of `a` under the flags `f` (41 R270). -/
def daaResult (a : Byte) (f : DocFlags) : Alu8 :=
  let low := a.toNat % 16
  let adjustLow := f.h || decide (low > 9)
  let adjustHigh := f.c || decide (a.toNat > 0x99)
  let corr : Byte := BitVec.ofNat 8 ((if adjustLow then 0x06 else 0) + (if adjustHigh then 0x60 else 0))
  let res : Byte := if f.n then a - corr else a + corr
  { res := res
    flags :=
      { s := res.getLsbD 7
        z := res == 0
        h := if f.n then f.h && decide (low < 6) else decide (low > 9)
        pv := parity res
        n := f.n
        c := adjustHigh } }

/-! ### Rotates and shifts: the result and the bit shifted out -/

/-- A rotate's result and its carry. -/
structure Shift8 where
  res   : Byte
  carry : Bool
  deriving DecidableEq, Repr

/-- `RLC`, `RLCA` (43 R320, R325). -/
def rlc8 (v : Byte) : Shift8 :=
  { res := (v <<< 1) ||| BitVec.ofNat 8 (v.getLsbD 7).toNat, carry := v.getLsbD 7 }

/-- `RL`, `RLA`, with the old carry (43 R321, R327). -/
def rl8 (v : Byte) (cin : Bool) : Shift8 :=
  { res := (v <<< 1) ||| BitVec.ofNat 8 cin.toNat, carry := v.getLsbD 7 }

/-- `RRC`, `RRCA` (43 R322, R326). -/
def rrc8 (v : Byte) : Shift8 :=
  { res := (v >>> 1) ||| (BitVec.ofNat 8 (v.getLsbD 0).toNat <<< 7), carry := v.getLsbD 0 }

/-- `RR`, `RRA`, with the old carry (43 R323, R328). -/
def rr8 (v : Byte) (cin : Bool) : Shift8 :=
  { res := (v >>> 1) ||| (BitVec.ofNat 8 cin.toNat <<< 7), carry := v.getLsbD 0 }

/-- `SLA` (43 R329). -/
def sla8 (v : Byte) : Shift8 := { res := v <<< 1, carry := v.getLsbD 7 }

/-- `SRA` (43 R330). -/
def sra8 (v : Byte) : Shift8 := { res := (v >>> 1) ||| (v &&& 0x80#8), carry := v.getLsbD 0 }

/-- `SRL` (43 R331). -/
def srl8 (v : Byte) : Shift8 := { res := v >>> 1, carry := v.getLsbD 0 }

/-! ### 16-bit arithmetic -/

/-- A 16-bit result and the flags that go with it. -/
structure Alu16 where
  res   : Word
  flags : DocFlags
  deriving DecidableEq, Repr

/-- `ADD HL,ss` and its `IX` and `IY` forms (42 R300): `S`, `Z`, `P/V` as they stood in `f`. -/
def add16 (a b : Word) (f : DocFlags) : Alu16 :=
  { res := BitVec.ofNat 16 (a.toNat + b.toNat)
    flags :=
      { f with
        h := decide (a.toNat % 4096 + b.toNat % 4096 > 4095)
        n := false
        c := decide (a.toNat + b.toNat > 65535) } }

/-- `ADC HL,ss` (42 R301). -/
def adc16 (a b : Word) (cin : Bool) : Alu16 :=
  let sum : Nat := a.toNat + b.toNat + cin.toNat
  let res : Word := BitVec.ofNat 16 sum
  { res := res
    flags :=
      { s := res.getLsbD 15
        z := res == 0
        h := decide (a.toNat % 4096 + b.toNat % 4096 + cin.toNat > 4095)
        pv := a.getLsbD 15 == b.getLsbD 15 && res.getLsbD 15 != a.getLsbD 15
        n := false
        c := decide (sum > 65535) } }

/-- `SBC HL,ss` (42 R302). -/
def sbc16 (a b : Word) (cin : Bool) : Alu16 :=
  let diff : Int := (a.toNat : Int) - b.toNat - cin.toNat
  let res : Word := BitVec.ofInt 16 diff
  { res := res
    flags :=
      { s := res.getLsbD 15
        z := res == 0
        h := decide (((a.toNat % 4096 : Nat) : Int) - (b.toNat % 4096 : Nat) - cin.toNat < 0)
        pv := a.getLsbD 15 != b.getLsbD 15 && res.getLsbD 15 != a.getLsbD 15
        n := true
        c := decide (diff < 0) } }

end Sys2Proof.Machine
end

