-- ==== Sys2Proof/Machine/Arith16.lean ====
section
/-! DEFINITION. The 16-bit arithmetic family (42_arith16 R300 to R310). -/

namespace Sys2Proof.Machine

/-- `ADD HL,ss` (R300). -/
def execAddHLSS (ss : PairDD) (s : State) : Result :=
  let r := add16 s.hl (s.pairDD ss) s.doc
  .next (((s.retire 1 1).setHL r.res).setFlags r.flags)

/-- `ADC HL,ss` (R301). -/
def execAdcHLSS (ss : PairDD) (s : State) : Result :=
  let r := adc16 s.hl (s.pairDD ss) s.main.f.c
  .next (((s.retire 2 2).setHL r.res).setFlags r.flags)

/-- `SBC HL,ss` (R302). -/
def execSbcHLSS (ss : PairDD) (s : State) : Result :=
  let r := sbc16 s.hl (s.pairDD ss) s.main.f.c
  .next (((s.retire 2 2).setHL r.res).setFlags r.flags)

/-- `ADD IX,pp` (R303). -/
def execAddIXPP (pp : PairPP) (s : State) : Result :=
  let r := add16 s.ix (s.pairPP pp) s.doc
  .next ({ s.retire 2 2 with ix := r.res }.setFlags r.flags)

/-- `ADD IY,rr` (R304). -/
def execAddIYRR (rr : PairRR) (s : State) : Result :=
  let r := add16 s.iy (s.pairRR rr) s.doc
  .next ({ s.retire 2 2 with iy := r.res }.setFlags r.flags)

/-- `INC ss` (R305). -/
def execIncSS (ss : PairDD) (s : State) : Result := .next ((s.retire 1 1).setPairDD ss (s.pairDD ss + 1))

/-- `INC IX` (R306). -/
def execIncIX (s : State) : Result := .next { s.retire 2 2 with ix := s.ix + 1 }

/-- `INC IY` (R307). -/
def execIncIY (s : State) : Result := .next { s.retire 2 2 with iy := s.iy + 1 }

/-- `DEC ss` (R308). -/
def execDecSS (ss : PairDD) (s : State) : Result := .next ((s.retire 1 1).setPairDD ss (s.pairDD ss - 1))

/-- `DEC IX` (R309). -/
def execDecIX (s : State) : Result := .next { s.retire 2 2 with ix := s.ix - 1 }

/-- `DEC IY` (R310). -/
def execDecIY (s : State) : Result := .next { s.retire 2 2 with iy := s.iy - 1 }

end Sys2Proof.Machine
end

