-- ==== Sys2Proof/Machine/Arith8.lean ====
section
/-! DEFINITION. The 8-bit arithmetic and logic family (41_arith8_logic R250 to R274). `t` is the retired state. -/

namespace Sys2Proof.Machine

/-! ### The eight accumulator operations on an operand value `v` (R253 to R261) -/

/-- `ADD A,s` (R254). -/
def addA (t : State) (v : Byte) : State :=
  let r := add8 t.main.a v false
  (t.setReg .a r.res).setFlags r.flags

/-- `ADC A,s` (R255). -/
def adcA (t : State) (v : Byte) : State :=
  let r := add8 t.main.a v t.main.f.c
  (t.setReg .a r.res).setFlags r.flags

/-- `SUB s` (R256). -/
def subA (t : State) (v : Byte) : State :=
  let r := sub8 t.main.a v false
  (t.setReg .a r.res).setFlags r.flags

/-- `SBC A,s` (R257). -/
def sbcA (t : State) (v : Byte) : State :=
  let r := sub8 t.main.a v t.main.f.c
  (t.setReg .a r.res).setFlags r.flags

/-- `AND s` (R258). -/
def andA (t : State) (v : Byte) : State :=
  let r := t.main.a &&& v
  (t.setReg .a r).setFlags (logic8 r true)

/-- `XOR s` (R259). -/
def xorA (t : State) (v : Byte) : State :=
  let r := t.main.a ^^^ v
  (t.setReg .a r).setFlags (logic8 r false)

/-- `OR s` (R260). -/
def orA (t : State) (v : Byte) : State :=
  let r := t.main.a ||| v
  (t.setReg .a r).setFlags (logic8 r false)

/-- `CP s` (R261): `A` is not written. -/
def cpA (t : State) (v : Byte) : State := t.setFlags (sub8 t.main.a v false).flags

/-! ### Their forms (R253) -/

/-- `ADD A,r` (R254). -/
def execAddR (src : Reg8) (s : State) : Result := .next (addA (s.retire 1 1) (s.reg src))

/-- `ADD A,n` (R254). -/
def execAddN (n : Byte) (s : State) : Result := .next (addA (s.retire 2 1) n)

/-- `ADD A,(HL)` (R254). -/
def execAddAtHL (s : State) : Result := .next (addA (s.retire 1 1) (s.fetch s.hl))

/-- `ADD A,(IX+d)` (R254). -/
def execAddAtIX (d : Byte) (s : State) : Result := .next (addA (s.retire 3 2) (s.fetch (s.atIX d)))

/-- `ADD A,(IY+d)` (R254). -/
def execAddAtIY (d : Byte) (s : State) : Result := .next (addA (s.retire 3 2) (s.fetch (s.atIY d)))

/-- `ADC A,r` (R255). -/
def execAdcR (src : Reg8) (s : State) : Result := .next (adcA (s.retire 1 1) (s.reg src))

/-- `ADC A,n` (R255). -/
def execAdcN (n : Byte) (s : State) : Result := .next (adcA (s.retire 2 1) n)

/-- `ADC A,(HL)` (R255). -/
def execAdcAtHL (s : State) : Result := .next (adcA (s.retire 1 1) (s.fetch s.hl))

/-- `ADC A,(IX+d)` (R255). -/
def execAdcAtIX (d : Byte) (s : State) : Result := .next (adcA (s.retire 3 2) (s.fetch (s.atIX d)))

/-- `ADC A,(IY+d)` (R255). -/
def execAdcAtIY (d : Byte) (s : State) : Result := .next (adcA (s.retire 3 2) (s.fetch (s.atIY d)))

/-- `SUB r` (R256). -/
def execSubR (src : Reg8) (s : State) : Result := .next (subA (s.retire 1 1) (s.reg src))

/-- `SUB n` (R256). -/
def execSubN (n : Byte) (s : State) : Result := .next (subA (s.retire 2 1) n)

/-- `SUB (HL)` (R256). -/
def execSubAtHL (s : State) : Result := .next (subA (s.retire 1 1) (s.fetch s.hl))

/-- `SUB (IX+d)` (R256). -/
def execSubAtIX (d : Byte) (s : State) : Result := .next (subA (s.retire 3 2) (s.fetch (s.atIX d)))

/-- `SUB (IY+d)` (R256). -/
def execSubAtIY (d : Byte) (s : State) : Result := .next (subA (s.retire 3 2) (s.fetch (s.atIY d)))

/-- `SBC A,r` (R257). -/
def execSbcR (src : Reg8) (s : State) : Result := .next (sbcA (s.retire 1 1) (s.reg src))

/-- `SBC A,n` (R257). -/
def execSbcN (n : Byte) (s : State) : Result := .next (sbcA (s.retire 2 1) n)

/-- `SBC A,(HL)` (R257). -/
def execSbcAtHL (s : State) : Result := .next (sbcA (s.retire 1 1) (s.fetch s.hl))

/-- `SBC A,(IX+d)` (R257). -/
def execSbcAtIX (d : Byte) (s : State) : Result := .next (sbcA (s.retire 3 2) (s.fetch (s.atIX d)))

/-- `SBC A,(IY+d)` (R257). -/
def execSbcAtIY (d : Byte) (s : State) : Result := .next (sbcA (s.retire 3 2) (s.fetch (s.atIY d)))

/-- `AND r` (R258). -/
def execAndR (src : Reg8) (s : State) : Result := .next (andA (s.retire 1 1) (s.reg src))

/-- `AND n` (R258). -/
def execAndN (n : Byte) (s : State) : Result := .next (andA (s.retire 2 1) n)

/-- `AND (HL)` (R258). -/
def execAndAtHL (s : State) : Result := .next (andA (s.retire 1 1) (s.fetch s.hl))

/-- `AND (IX+d)` (R258). -/
def execAndAtIX (d : Byte) (s : State) : Result := .next (andA (s.retire 3 2) (s.fetch (s.atIX d)))

/-- `AND (IY+d)` (R258). -/
def execAndAtIY (d : Byte) (s : State) : Result := .next (andA (s.retire 3 2) (s.fetch (s.atIY d)))

/-- `XOR r` (R259). -/
def execXorR (src : Reg8) (s : State) : Result := .next (xorA (s.retire 1 1) (s.reg src))

/-- `XOR n` (R259). -/
def execXorN (n : Byte) (s : State) : Result := .next (xorA (s.retire 2 1) n)

/-- `XOR (HL)` (R259). -/
def execXorAtHL (s : State) : Result := .next (xorA (s.retire 1 1) (s.fetch s.hl))

/-- `XOR (IX+d)` (R259). -/
def execXorAtIX (d : Byte) (s : State) : Result := .next (xorA (s.retire 3 2) (s.fetch (s.atIX d)))

/-- `XOR (IY+d)` (R259). -/
def execXorAtIY (d : Byte) (s : State) : Result := .next (xorA (s.retire 3 2) (s.fetch (s.atIY d)))

/-- `OR r` (R260). -/
def execOrR (src : Reg8) (s : State) : Result := .next (orA (s.retire 1 1) (s.reg src))

/-- `OR n` (R260). -/
def execOrN (n : Byte) (s : State) : Result := .next (orA (s.retire 2 1) n)

/-- `OR (HL)` (R260). -/
def execOrAtHL (s : State) : Result := .next (orA (s.retire 1 1) (s.fetch s.hl))

/-- `OR (IX+d)` (R260). -/
def execOrAtIX (d : Byte) (s : State) : Result := .next (orA (s.retire 3 2) (s.fetch (s.atIX d)))

/-- `OR (IY+d)` (R260). -/
def execOrAtIY (d : Byte) (s : State) : Result := .next (orA (s.retire 3 2) (s.fetch (s.atIY d)))

/-- `CP r` (R261). -/
def execCpR (src : Reg8) (s : State) : Result := .next (cpA (s.retire 1 1) (s.reg src))

/-- `CP n` (R261). -/
def execCpN (n : Byte) (s : State) : Result := .next (cpA (s.retire 2 1) n)

/-- `CP (HL)` (R261). -/
def execCpAtHL (s : State) : Result := .next (cpA (s.retire 1 1) (s.fetch s.hl))

/-- `CP (IX+d)` (R261). -/
def execCpAtIX (d : Byte) (s : State) : Result := .next (cpA (s.retire 3 2) (s.fetch (s.atIX d)))

/-- `CP (IY+d)` (R261). -/
def execCpAtIY (d : Byte) (s : State) : Result := .next (cpA (s.retire 3 2) (s.fetch (s.atIY d)))

/-! ### INC and DEC (R262 to R269): `C` is not written -/

/-- What `INC` computes from `v`, with the carry `c` that stands (R262). -/
def inc8 (v : Byte) (c : Bool) : Alu8 :=
  { add8 v 1 false with flags := { (add8 v 1 false).flags with c := c } }

/-- What `DEC` computes from `v`, with the carry `c` that stands (R266). -/
def dec8 (v : Byte) (c : Bool) : Alu8 :=
  { sub8 v 1 false with flags := { (sub8 v 1 false).flags with c := c } }

/-- A result written to a register, and its flags. -/
def putReg (t : State) (r : Reg8) (x : Alu8) : State := (t.setReg r x.res).setFlags x.flags

/-- A result written to memory, and its flags (R263: the flags are set at a ROM address too). -/
def putMem (t : State) (a : Word) (x : Alu8) : State := (t.store a x.res).setFlags x.flags

/-- `INC r` (R262). -/
def execIncR (r : Reg8) (s : State) : Result := .next (putReg (s.retire 1 1) r (inc8 (s.reg r) s.main.f.c))

/-- `INC (HL)` (R263). -/
def execIncAtHL (s : State) : Result :=
  .next (putMem (s.retire 1 1) s.hl (inc8 (s.fetch s.hl) s.main.f.c))

/-- `INC (IX+d)` (R264). -/
def execIncAtIX (d : Byte) (s : State) : Result :=
  .next (putMem (s.retire 3 2) (s.atIX d) (inc8 (s.fetch (s.atIX d)) s.main.f.c))

/-- `INC (IY+d)` (R265). -/
def execIncAtIY (d : Byte) (s : State) : Result :=
  .next (putMem (s.retire 3 2) (s.atIY d) (inc8 (s.fetch (s.atIY d)) s.main.f.c))

/-- `DEC r` (R266). -/
def execDecR (r : Reg8) (s : State) : Result := .next (putReg (s.retire 1 1) r (dec8 (s.reg r) s.main.f.c))

/-- `DEC (HL)` (R267). -/
def execDecAtHL (s : State) : Result :=
  .next (putMem (s.retire 1 1) s.hl (dec8 (s.fetch s.hl) s.main.f.c))

/-- `DEC (IX+d)` (R268). -/
def execDecAtIX (d : Byte) (s : State) : Result :=
  .next (putMem (s.retire 3 2) (s.atIX d) (dec8 (s.fetch (s.atIX d)) s.main.f.c))

/-- `DEC (IY+d)` (R269). -/
def execDecAtIY (d : Byte) (s : State) : Result :=
  .next (putMem (s.retire 3 2) (s.atIY d) (dec8 (s.fetch (s.atIY d)) s.main.f.c))

/-! ### General-purpose accumulator and flag operations (R270 to R274) -/

/-- `DAA` (R270). -/
def execDaa (s : State) : Result := .next (putReg (s.retire 1 1) .a (daaResult s.main.a s.doc))

/-- `CPL` (R271). -/
def execCpl (s : State) : Result :=
  .next (((s.retire 1 1).setReg .a (s.main.a ^^^ 0xFF)).setFlags { s.doc with h := true, n := true })

/-- `NEG` (R272). -/
def execNeg (s : State) : Result := .next (putReg (s.retire 2 2) .a (sub8 0 s.main.a false))

/-- `CCF` (R273). -/
def execCcf (s : State) : Result :=
  .next ((s.retire 1 1).setFlags { s.doc with h := s.main.f.c, n := false, c := !s.main.f.c })

/-- `SCF` (R274). -/
def execScf (s : State) : Result :=
  .next ((s.retire 1 1).setFlags { s.doc with h := false, n := false, c := true })

end Sys2Proof.Machine
end

