-- ==== Sys2Proof/Machine/Bit.lean ====
section
/-! DEFINITION. The bit family (44_bit R350 to R355). A bit number above 7 names no bit of a byte: the encoding has
none (log 13). -/

namespace Sys2Proof.Machine

/-- `BIT b` of the value `v` (R350): `Z`, `H`, `N`; `S` and `P/V` left to the draw; `C` stands. -/
def testBit (t : State) (b : Nat) (v : Byte) : State :=
  t.setFlags { s := t.drawn.s, z := !v.getLsbD b, h := true, pv := t.drawn.pv, n := false, c := t.main.f.c }

/-- `m or (1 << b)` (R354). -/
def withBit (b : Nat) (v : Byte) : Byte := v ||| (1#8 <<< b)

/-- `m and not (1 << b)` (R355). -/
def withoutBit (b : Nat) (v : Byte) : Byte := v &&& ~~~(1#8 <<< b)

/-! ### BIT (R350 to R353) -/

/-- `BIT b,r` (R350). -/
def execBitR (b : Nat) (r : Reg8) (s : State) : Result := .next (testBit (s.retire 2 2) b (s.reg r))

/-- `BIT b,(HL)` (R351). -/
def execBitAtHL (b : Nat) (s : State) : Result := .next (testBit (s.retire 2 2) b (s.fetch s.hl))

/-- `BIT b,(IX+d)` (R352). -/
def execBitAtIX (b : Nat) (d : Byte) (s : State) : Result := .next (testBit (s.retire 4 2) b (s.fetch (s.atIX d)))

/-- `BIT b,(IY+d)` (R353). -/
def execBitAtIY (b : Nat) (d : Byte) (s : State) : Result := .next (testBit (s.retire 4 2) b (s.fetch (s.atIY d)))

/-! ### SET and RES (R354, R355): no flag is written -/

/-- `SET b,r` (R354). -/
def execSetR (b : Nat) (r : Reg8) (s : State) : Result := .next ((s.retire 2 2).setReg r (withBit b (s.reg r)))

/-- `SET b,(HL)` (R354). -/
def execSetAtHL (b : Nat) (s : State) : Result := .next ((s.retire 2 2).store s.hl (withBit b (s.fetch s.hl)))

/-- `SET b,(IX+d)` (R354). -/
def execSetAtIX (b : Nat) (d : Byte) (s : State) : Result :=
  .next ((s.retire 4 2).store (s.atIX d) (withBit b (s.fetch (s.atIX d))))

/-- `SET b,(IY+d)` (R354). -/
def execSetAtIY (b : Nat) (d : Byte) (s : State) : Result :=
  .next ((s.retire 4 2).store (s.atIY d) (withBit b (s.fetch (s.atIY d))))

/-- `RES b,r` (R355). -/
def execResR (b : Nat) (r : Reg8) (s : State) : Result := .next ((s.retire 2 2).setReg r (withoutBit b (s.reg r)))

/-- `RES b,(HL)` (R355). -/
def execResAtHL (b : Nat) (s : State) : Result := .next ((s.retire 2 2).store s.hl (withoutBit b (s.fetch s.hl)))

/-- `RES b,(IX+d)` (R355). -/
def execResAtIX (b : Nat) (d : Byte) (s : State) : Result :=
  .next ((s.retire 4 2).store (s.atIX d) (withoutBit b (s.fetch (s.atIX d))))

/-- `RES b,(IY+d)` (R355). -/
def execResAtIY (b : Nat) (d : Byte) (s : State) : Result :=
  .next ((s.retire 4 2).store (s.atIY d) (withoutBit b (s.fetch (s.atIY d))))

end Sys2Proof.Machine
end

