-- ==== Sys2Proof/Machine/Block.lean ====
section
/-! DEFINITION. Block transfer and block search (47_block_transfer_search R420 to R427): one iteration a step. -/

namespace Sys2Proof.Machine

/-- `HL` and `DE` moved by `step`, `BC` decremented, the byte moved, the flags of R420. -/
def blockMove (t : State) (step : Word) : State :=
  let u := (((t.store t.de (t.fetch t.hl)).setHL (t.hl + step)).setDE (t.de + step)).setBC (t.bc - 1)
  u.setFlags { t.doc with h := false, n := false, pv := t.bc - 1 != 0 }

/-- `PC <- pc0` while the condition holds, else `pcn` (R421; 46 R394). -/
def repeatWhile (again : Bool) (pc0 : Word) (t : State) : State := { t with pc := if again then pc0 else t.pc }

/-- `LDI` (R420). -/
def execLdi (s : State) : Result := .next (blockMove (s.retire 2 2) 1)

/-- `LDIR` (R421). -/
def execLdir (s : State) : Result :=
  let t := blockMove (s.retire 2 2) 1
  .next (repeatWhile (t.bc != 0) s.pc t)

/-- `LDD` (R422). -/
def execLdd (s : State) : Result := .next (blockMove (s.retire 2 2) (-1))

/-- `LDDR` (R423). -/
def execLddr (s : State) : Result :=
  let t := blockMove (s.retire 2 2) (-1)
  .next (repeatWhile (t.bc != 0) s.pc t)

/-- `HL` moved by `step`, `BC` decremented, the flags of the comparison of `A` with `(HL)`, `C` standing (R424). -/
def blockCompare (t : State) (step : Word) : State :=
  let r := sub8 t.main.a (t.fetch t.hl) false
  let u := (t.setHL (t.hl + step)).setBC (t.bc - 1)
  u.setFlags { r.flags with pv := t.bc - 1 != 0, c := t.main.f.c }

/-- `CPI` (R424). -/
def execCpi (s : State) : Result := .next (blockCompare (s.retire 2 2) 1)

/-- `CPIR` (R425). -/
def execCpir (s : State) : Result :=
  let t := blockCompare (s.retire 2 2) 1
  .next (repeatWhile (t.bc != 0 && !t.main.f.z) s.pc t)

/-- `CPD` (R426). -/
def execCpd (s : State) : Result := .next (blockCompare (s.retire 2 2) (-1))

/-- `CPDR` (R427). -/
def execCpdr (s : State) : Result :=
  let t := blockCompare (s.retire 2 2) (-1)
  .next (repeatWhile (t.bc != 0 && !t.main.f.z) s.pc t)

end Sys2Proof.Machine
end

