-- ==== Sys2Proof/Machine/Exchange.lean ====
section
/-! DEFINITION. The exchange and CPU control family (48_exchange_cpu_control R440 to R452). -/

namespace Sys2Proof.Machine

/-- `EX DE,HL` (R440). -/
def execExDEHL (s : State) : Result := .next (((s.retire 1 1).setDE s.hl).setHL s.de)

/-- `EX AF,AF'` (R441): all eight bits of `F`. -/
def execExAFAF (s : State) : Result :=
  .next { s.retire 1 1 with
    main := { s.main with a := s.shadow.a, f := s.shadow.f }
    shadow := { s.shadow with a := s.main.a, f := s.main.f } }

/-- `EXX` (R442). -/
def execExx (s : State) : Result :=
  .next { s.retire 1 1 with
    main := { s.shadow with a := s.main.a, f := s.main.f }
    shadow := { s.main with a := s.shadow.a, f := s.shadow.f } }

/-- `EX (SP),HL` (R443): both reads before both writes. -/
def execExAtSPHL (s : State) : Result := .next (((s.retire 1 1).store16 s.sp s.hl).setHL s.top16)

/-- `EX (SP),IX` (R444). -/
def execExAtSPIX (s : State) : Result := .next { (s.retire 2 2).store16 s.sp s.ix with ix := s.top16 }

/-- `EX (SP),IY` (R445). -/
def execExAtSPIY (s : State) : Result := .next { (s.retire 2 2).store16 s.sp s.iy with iy := s.top16 }

/-- `NOP` (R446). -/
def execNop (s : State) : Result := .next (s.retire 1 1)

/-- `HALT` (R447). -/
def execHalt (s : State) : Result := .next (s.retire 1 1).raiseHalt

/-- `DI` (R448). -/
def execDi (s : State) : Result := .next { s.retire 1 1 with iff1 := false, iff2 := false }

/-- `EI` (R449), at once. -/
def execEi (s : State) : Result := .next { s.retire 1 1 with iff1 := true, iff2 := true }

/-- `IM 0` (R450). -/
def execIm0 (s : State) : Result := .next { s.retire 2 2 with im := .im0 }

/-- `IM 1` (R451). -/
def execIm1 (s : State) : Result := .next { s.retire 2 2 with im := .im1 }

/-- `IM 2` (R452). -/
def execIm2 (s : State) : Result := .next { s.retire 2 2 with im := .im2 }

end Sys2Proof.Machine
end

