-- ==== Sys2Proof/Machine/Disk.lean ====
section
/-! DEFINITION. The Disk Store boundary (49 R560 to R566): the operations on one unit, and the unit a dispatcher
function addresses. -/

namespace Sys2Proof.Machine

/-- The cells of a list of bytes that stands from offset `k` on. -/
def cellsFrom (k : Nat) : List Byte → List Host.Cell
  | [] => []
  | v :: rest => if v = Memory.fill then cellsFrom (k + 1) rest else (k, v) :: cellsFrom (k + 1) rest

/-- A disk image held sparsely (log 18). -/
def Blob.ofBytes (bytes : List Byte) : Blob := { size := bytes.length, bytes := { cells := cellsFrom 0 bytes } }

/-- The bytes of an image. -/
def Blob.toBytes (b : Blob) : List Byte := b.bytes.readList 0 b.size

/-- `attach` (R561); `extra` is `slice_count` less one. -/
def DiskUnit.attach (bytes : List Byte) (extra : Fin 8) : DiskUnit :=
  { present := true, data := Blob.ofBytes bytes, extraSlices := extra, position := 0, dirty := false }

/-- `slice_count` (R560). -/
def DiskUnit.sliceCount (u : DiskUnit) : Nat := u.extraSlices.val + 1

/-- `seek` (R562): no bounds check. -/
def DiskUnit.seek (u : DiskUnit) (lba : BitVec 32) : DiskUnit := { u with position := lba }

/-- `(position + 1) * 512 <= len(data)`, on unbounded integers (R563). -/
def DiskUnit.sectorInRange (u : DiskUnit) : Bool :=
  decide ((u.position.toNat + 1) * Config.sectorSize ≤ u.data.size)

/-- The bytes of the sector at `position` (R563). -/
def DiskUnit.sector (u : DiskUnit) : List Byte :=
  u.data.bytes.readList (u.position.toNat * Config.sectorSize) Config.sectorSize

/-- `position <- position + 1` (R563; log 25). -/
def DiskUnit.advance (u : DiskUnit) : DiskUnit := { u with position := u.position + 1 }

/-- `write_sector` on a sector in range (R563): the bytes replaced, `dirty` set, `position` advanced. -/
def DiskUnit.writeSector (u : DiskUnit) (buf : List Byte) : DiskUnit :=
  { u with
    data := { u.data with bytes := u.data.bytes.writeList (u.position.toNat * Config.sectorSize) buf }
    dirty := true
    position := u.position + 1 }

/-- `capacity(u)`, the number of sectors (R564). -/
def DiskUnit.capacity (u : DiskUnit) : Nat := u.sliceCount * Config.sliceSectors

/-- The unit register `C` names, after the check of R530: its index, or the status byte. -/
def State.selectedUnit (s : State) : Except Byte (Fin 16) :=
  if h : s.main.c.toNat < 16 then
    if (s.units[s.main.c.toNat]'h).present then .ok ⟨s.main.c.toNat, h⟩ else .error 0x02
  else .error 0x01

/-- A unit of the table. -/
def State.unitAt (s : State) (i : Fin 16) : DiskUnit := s.units[i.val]

/-- A unit of the table, replaced. -/
def State.setUnit (s : State) (i : Fin 16) (u : DiskUnit) : State := { s with units := s.units.set i.val u }

/-- A list of bytes stored through the window at rising addresses from `a` on. -/
def State.storeList (s : State) (a : Word) : List Byte → State
  | [] => s
  | v :: rest => (s.store a v).storeList (a + 1) rest

/-- `k` bytes fetched through the window from address `a` on. -/
def State.fetchList (s : State) (a : Word) : Nat → List Byte
  | 0 => []
  | k + 1 => s.fetch a :: s.fetchList (a + 1) k

/-- `A <- status; E <- done` (R532). -/
def State.setDiskStatus (s : State) (status : Byte) (done : Nat) : State :=
  { s with main := { s.main with a := status, e := BitVec.ofNat 8 done } }

/-- The loop of `DIOREAD` (R532): `n` sectors still to do, `done` done, the buffer at `a`. -/
def diskRead (i : Fin 16) : (n done : Nat) → (a : Word) → State → State
  | 0, done, _, s => s.setDiskStatus 0x00 done
  | n + 1, done, a, s =>
    if (s.unitAt i).sectorInRange then
      diskRead i n (done + 1) (a + 512) ((s.storeList a (s.unitAt i).sector).setUnit i (s.unitAt i).advance)
    else s.setDiskStatus 0x03 done

/-- The loop of `DIOWRITE` (R533). -/
def diskWrite (i : Fin 16) : (n done : Nat) → (a : Word) → State → State
  | 0, done, _, s => s.setDiskStatus 0x00 done
  | n + 1, done, a, s =>
    if (s.unitAt i).sectorInRange then
      diskWrite i n (done + 1) (a + 512)
        (s.setUnit i ((s.unitAt i).writeSector (s.fetchList a Config.sectorSize)))
    else s.setDiskStatus 0x03 done

end Sys2Proof.Machine
end

