-- ==== Sys2Proof/Machine/Hbios.lean ====
section
/-! DEFINITION. The HBIOS dispatch behind port `0xEF` (49 R519 to R550). `t` is the state the `OUT` instruction left
(46 R390 item 2), `before` the state before the step. -/

namespace Sys2Proof.Machine

/-- The functions the spec interprets, and the rest (49 R519). -/
inductive HbiosFn where
  | cioin | cioout | cioist | cioost
  | dioseek | dioread | diowrite | diocap
  | sysreset | sysver | syssetbnk | sysgetbnk | syssetcpy | syspeek | syspoke | sysboot
  | ext
  deriving DecidableEq, Repr

/-- The function a code in `B` names (49 R519): `ext` for every code routed to `hbios_ext` and every code not listed
(R550). -/
def HbiosFn.ofCode (fn : Byte) : HbiosFn :=
  if fn = 0x00 then .cioin
  else if fn = 0x01 then .cioout
  else if fn = 0x02 then .cioist
  else if fn = 0x03 then .cioost
  else if fn = 0x12 then .dioseek
  else if fn = 0x13 then .dioread
  else if fn = 0x14 then .diowrite
  else if fn = 0x1A then .diocap
  else if fn = 0xF0 then .sysreset
  else if fn = 0xF1 then .sysver
  else if fn = 0xF2 then .syssetbnk
  else if fn = 0xF3 then .sysgetbnk
  else if fn = 0xF4 then .syssetcpy
  else if fn = 0xFA then .syspeek
  else if fn = 0xFB then .syspoke
  else if fn = 0xFE then .sysboot
  else .ext

/-- `A <- v`. -/
def State.setA (s : State) (v : Byte) : State := { s with main := { s.main with a := v } }

/-! ### Character functions -/

/-- CIOIN (R521): the oldest byte of `INQ` in `E`, or the step annulled. -/
def cioIn (before t : State) : State :=
  match t.inq with
  | v :: rest => { t with inq := rest, main := { t.main with e := v, a := 0x00 } }
  | [] => before.annul

/-- CIOOUT (R522): the byte `E` to the tail of `OUTQ`. -/
def cioOut (t : State) : State := { t with outq := t.outq ++ [t.main.e], main := { t.main with a := 0x00 } }

/-- CIOIST (R523). -/
def cioInStatus (t : State) : State := t.setA (if t.inq.isEmpty then 0x00 else 0xFF)

/-- CIOOST (R524). -/
def cioOutStatus (t : State) : State := t.setA 0xFF

/-! ### Disk functions (R530 to R534) -/

/-- A disk function after the unit check of R530. -/
def onUnit (t : State) (f : Fin 16 → State) : State :=
  match t.selectedUnit with
  | .ok i => f i
  | .error status => t.setA status

/-- DIOSEEK's sector number `{D[6:0], E, H, L}` (R531; log 26). -/
def State.lba (s : State) : BitVec 32 := (s.main.d &&& 0x7F#8) ++ s.main.e ++ s.main.h ++ s.main.l

/-- DIOSEEK (R531). -/
def dioSeek (t : State) : State := onUnit t fun i => (t.setUnit i ((t.unitAt i).seek t.lba)).setA 0x00

/-- DIOREAD (R532). -/
def dioRead (t : State) : State := onUnit t fun i => diskRead i t.main.e.toNat 0 t.hl t

/-- DIOWRITE (R533). -/
def dioWrite (t : State) : State := onUnit t fun i => diskWrite i t.main.e.toNat 0 t.hl t

/-- DIOCAP (R534): the sector count in `DE:HL`, the sector size in `BC`. -/
def dioCap (t : State) : State :=
  onUnit t fun i =>
    let sectors := (t.unitAt i).capacity
    { t with main :=
      { t.main with
        a := 0x00, b := 0x02, c := 0x00
        d := BitVec.ofNat 8 (sectors / 16777216)
        e := BitVec.ofNat 8 (sectors / 65536)
        h := BitVec.ofNat 8 (sectors / 256)
        l := BitVec.ofNat 8 sectors } }

/-! ### System functions -/

/-- The reset callback (70 R653): a cold reset clears `ram` and copies the head of `rom`; both select ROM bank 0 and
put `PC` at the reset vector. -/
def resetCallback (warm : Bool) (t : State) : State :=
  let u := if warm then t else t.clearRam.copyHead 0
  { u.selectBank 0x00 with pc := 0x0000 }

/-- SYSRESET (R540). -/
def sysReset (t : State) : State := resetCallback (t.main.e == 0x01) t

/-- SYSVER (R541). -/
def sysVer (t : State) : State :=
  { t with main := { t.main with l := Config.hbiosVersionMajor, h := Config.hbiosVersionMinor, a := 0x00 } }

/-- SYSSETBNK (R542). -/
def sysSetBank (t : State) : State :=
  let u := t.selectBank t.main.c
  { u with main := { u.main with c := t.bank, a := 0x00 } }

/-- SYSGETBNK (R543). -/
def sysGetBank (t : State) : State := { t with main := { t.main with c := t.bank, a := 0x00 } }

/-- SYSSETCPY (R544): the source bank to `0xFFE4`, the destination bank to `0xFFE7`. -/
def sysSetCopy (t : State) : State := ((t.store 0xFFE4 t.main.e).store 0xFFE7 t.main.d).setA 0x00

/-- SYSPEEK (R549). -/
def sysPeek (t : State) : State := { t with main := { t.main with e := t.readBank t.main.d t.hl, a := 0x00 } }

/-- SYSPOKE (R549). -/
def sysPoke (t : State) : State := (t.writeBank t.main.d t.hl t.main.e).setA 0x00

/-! ### `hbios_ext` (R550) -/

/-- A unit as the unit table holds it; an absent unit's data is empty (R560). -/
def UnitImage.toUnit (u : UnitImage) : DiskUnit :=
  { present := u.present, data := Blob.ofBytes (if u.present then u.data else []), extraSlices := u.extraSlices,
    position := u.position, dirty := u.dirty }

/-- A unit after `hbios_ext` answered it: DIORESET, code `0x11`, does not clear `dirty` (R530; 92 D21). -/
def keepDirty (fn : Byte) (answer : UnitImage) (old : DiskUnit) : DiskUnit :=
  { answer.toUnit with dirty := answer.dirty || (fn == 0x11 && old.dirty) }

/-- What `hbios_ext` is given (R550). -/
def State.hbiosArgs (s : State) : HbiosArgs :=
  { fn := s.main.b, a := s.main.a, c := s.main.c, d := s.main.d, e := s.main.e, h := s.main.h, l := s.main.l,
    bank := s.bank, rom := s.rom, ram := s.ram, units := s.units }

/-- The memory with each cell written, its address taken modulo the memory's size. -/
def Memory.writeCells (m : Memory) : List Host.Cell → Memory
  | [] => m
  | (a, v) :: rest => (m.write (a % Config.physSize) v).writeCells rest

/-- The frame of `hbios_ext` (R550): seven registers, `ram`, the unit table, nothing else; DIORESET keeps `dirty`
(R530). -/
def hbiosExtended (t : State) : State :=
  let r := Config.hbiosExt t.hbiosArgs
  { t with
    main := { t.main with a := r.a, b := r.b, c := r.c, d := r.d, e := r.e, h := r.h, l := r.l }
    ram := t.ram.writeCells r.ramWrites
    units := Vector.zipWith (keepDirty t.main.b) r.units t.units }

/-! ### The dispatch -/

/-- `hbios_dispatch()` (R520): the function is `B` as the `OUT` instruction left it. SYSBOOT is refused (R548). -/
def hbiosDispatch (before t : State) : Result :=
  match HbiosFn.ofCode t.main.b with
  | .cioin => .next (cioIn before t)
  | .cioout => .next (cioOut t)
  | .cioist => .next (cioInStatus t)
  | .cioost => .next (cioOutStatus t)
  | .dioseek => .next (dioSeek t)
  | .dioread => .next (dioRead t)
  | .diowrite => .next (dioWrite t)
  | .diocap => .next (dioCap t)
  | .sysreset => .next (sysReset t)
  | .sysver => .next (sysVer t)
  | .syssetbnk => .next (sysSetBank t)
  | .sysgetbnk => .next (sysGetBank t)
  | .syssetcpy => .next (sysSetCopy t)
  | .syspeek => .next (sysPeek t)
  | .syspoke => .next (sysPoke t)
  | .sysboot => .refused .sysBoot
  | .ext => .next (hbiosExtended t)

end Sys2Proof.Machine
end

