-- ==== Sys2Proof/Machine/Ports.lean ====
section
/-! DEFINITION. The port level (49 R500 to R503) and the bank-copy helper (R555). -/

namespace Sys2Proof.Machine

/-- The byte `PortIn(p)` returns (R501). -/
def portValue (s : State) (p : Byte) : Byte :=
  if p = 0x68 then s.inq.headD 0x00
  else if p = 0x6D then (if s.inq.isEmpty then 0x60 else 0x61)
  else if p = 0x78 ∨ p = 0x7C then s.bank
  else if p = 0xFE then 0x00
  else 0xFF

/-- What `PortIn(p)` does to the state (R501): port `0x68` takes the oldest byte of `INQ`. -/
def afterPortIn (s : State) (p : Byte) : State := { s with inq := if p = 0x68 then s.inq.drop 1 else s.inq }

/-- The byte loop of the bank copy (R555): `n` bytes, `sb` and `db` the bank bytes. Above `0x7FFF`, `readBank` and
`writeBank` are `fetch` and `store` (20 R73). -/
def copyBytes (sb db : Byte) : (n : Nat) → (src dst : Word) → State → State
  | 0, _, _, s => s
  | n + 1, src, dst, s => copyBytes sb db n (src + 1) (dst + 1) (s.writeBank db dst (s.readBank sb src))

/-- `HL`, `DE`, `BC` after the bank copy: three draws (R555; log 5). -/
def State.drawPairs (s : State) : State :=
  { (((s.setHL (Config.freeWord s.draws)).setDE (Config.freeWord (s.draws + 1))).setBC
      (Config.freeWord (s.draws + 2))) with draws := s.draws + 3 }

/-- `bank_copy()` (R555): refused with `BC = 0`. -/
def bankCopy (t : State) : Result :=
  if t.bc = 0 then .refused .bankCopyZeroLength
  else .next (copyBytes (t.fetch 0xFFE4) (t.fetch 0xFFE7) t.bc.toNat t.hl t.de t).drawPairs

/-- `PortOut(p, v)` (R502), on the state `t` the instruction's own updates left; `before` is the state before the
step. -/
def portOut (before t : State) (p v : Byte) : Result :=
  if p = 0x68 then .next { t with outq := t.outq ++ [v] }
  else if p = 0x78 ∨ p = 0x7C then .next (t.selectBank v)
  else if p = 0xEC then bankCopy t
  else if p = 0xED then .refused .bankCallPort
  else if p = 0xEE then .refused .signalPort
  else if p = 0xEF then hbiosDispatch before t
  else .next t

end Sys2Proof.Machine
end

