-- ==== Sys2Proof/Machine/Io.lean ====
section
/-! DEFINITION. The input and output family (46_io R390 to R402). `t` is the retired state. The port number is the
immediate, or `C` (R390 item 1); an output instruction's own updates come before `PortOut` (item 2). -/

namespace Sys2Proof.Machine

/-! ### Input -/

/-- `IN A,(n)` (R391): no flag is written. -/
def execInAPortN (n : Byte) (s : State) : Result :=
  let t := s.retire 2 1
  .next ((afterPortIn t n).setReg .a (portValue t n))

/-- `IN r,(C)` (R392). -/
def execInRPortC (r : Reg8) (s : State) : Result :=
  let t := s.retire 2 2
  let v := portValue t t.main.c
  .next (((afterPortIn t t.main.c).setReg r v).setFlags (shiftFlags v t.main.f.c))

/-- The flags of a block input or output step (R393): `Z` from the new `B`, `N` set, `C` standing, `S`, `H`, `P/V`
left to the draw. -/
def blockIoFlags (t : State) (b : Byte) : DocFlags :=
  { s := t.drawn.s, z := b == 0, h := t.drawn.h, pv := t.drawn.pv, n := true, c := t.main.f.c }

/-- `HL` moved by `step`, `B` decremented, the flags of R393. -/
def countIo (t : State) (step : Word) : State :=
  let u := (t.setHL (t.hl + step)).setReg .b (t.main.b - 1)
  u.setFlags (blockIoFlags t (t.main.b - 1))

/-- One block input step (R393): the port read, the byte stored at `HL`, then the counters and the flags. -/
def blockIn (t : State) (step : Word) : State :=
  countIo ((afterPortIn t t.main.c).store t.hl (portValue t t.main.c)) step

/-- `INI` (R393). -/
def execIni (s : State) : Result := .next (blockIn (s.retire 2 2) 1)

/-- `INIR` (R394). -/
def execInir (s : State) : Result :=
  let t := blockIn (s.retire 2 2) 1
  .next (repeatWhile (t.main.b != 0) s.pc t)

/-- `IND` (R395). -/
def execInd (s : State) : Result := .next (blockIn (s.retire 2 2) (-1))

/-- `INDR` (R396). -/
def execIndr (s : State) : Result :=
  let t := blockIn (s.retire 2 2) (-1)
  .next (repeatWhile (t.main.b != 0) s.pc t)

/-! ### Output -/

/-- `OUT (n),A` (R397). -/
def execOutPortNA (n : Byte) (s : State) : Result := portOut s (s.retire 2 1) n s.main.a

/-- `OUT (C),r` (R398). -/
def execOutPortCR (src : Reg8) (s : State) : Result := portOut s (s.retire 2 2) s.main.c (s.reg src)

/-- `OUTI` (R399): `PortOut` is last. -/
def execOuti (s : State) : Result := portOut s (countIo (s.retire 2 2) 1) s.main.c (s.fetch s.hl)

/-- `OTIR` (R400): the repeat test, too, is before `PortOut`. -/
def execOtir (s : State) : Result :=
  let t := countIo (s.retire 2 2) 1
  portOut s (repeatWhile (t.main.b != 0) s.pc t) s.main.c (s.fetch s.hl)

/-- `OUTD` (R401). -/
def execOutd (s : State) : Result := portOut s (countIo (s.retire 2 2) (-1)) s.main.c (s.fetch s.hl)

/-- `OTDR` (R402). -/
def execOtdr (s : State) : Result :=
  let t := countIo (s.retire 2 2) (-1)
  portOut s (repeatWhile (t.main.b != 0) s.pc t) s.main.c (s.fetch s.hl)

end Sys2Proof.Machine
end

