-- ==== Sys2Proof/Machine/Jump.lean ====
section
/-! DEFINITION. The jump, call, return and restart family (45_jump_call_ret R361 to R378). `t` is the retired state: its
`PC` is `pcn`. -/

namespace Sys2Proof.Machine

/-- `PC <- target`. -/
def jumpTo (t : State) (target : Word) : State := { t with pc := target }

/-- `PC <- (pcn + sext_8(e)) mod 65536` (R363). -/
def jumpRelative (t : State) (e : Byte) : State := jumpTo t (addSigned t.pc e)

/-- `Push16(pcn); PC <- target` (R372). -/
def callTo (t : State) (target : Word) : State := jumpTo (t.push16 t.pc) target

/-- `PC <- Pop16()` (R374). -/
def returnFrom (t : State) : State := jumpTo t.dropTop t.top16

/-- `JP nn` (R361). -/
def execJpNN (nn : Word) (s : State) : Result := .next (jumpTo (s.retire 3 1) nn)

/-- `JP cc,nn` (R362). -/
def execJpCcNN (cc : Cond) (nn : Word) (s : State) : Result :=
  .next (if condHolds s.main.f cc then jumpTo (s.retire 3 1) nn else s.retire 3 1)

/-- `JR e` (R363). -/
def execJrE (e : Byte) (s : State) : Result := .next (jumpRelative (s.retire 2 1) e)

/-- `JR C,e` (R364). -/
def execJrCE (e : Byte) (s : State) : Result :=
  .next (if s.main.f.c then jumpRelative (s.retire 2 1) e else s.retire 2 1)

/-- `JR NC,e` (R365). -/
def execJrNcE (e : Byte) (s : State) : Result :=
  .next (if !s.main.f.c then jumpRelative (s.retire 2 1) e else s.retire 2 1)

/-- `JR Z,e` (R366). -/
def execJrZE (e : Byte) (s : State) : Result :=
  .next (if s.main.f.z then jumpRelative (s.retire 2 1) e else s.retire 2 1)

/-- `JR NZ,e` (R367). -/
def execJrNzE (e : Byte) (s : State) : Result :=
  .next (if !s.main.f.z then jumpRelative (s.retire 2 1) e else s.retire 2 1)

/-- `JP (HL)` (R368): no memory is read. -/
def execJpHL (s : State) : Result := .next (jumpTo (s.retire 1 1) s.hl)

/-- `JP (IX)` (R369). -/
def execJpIX (s : State) : Result := .next (jumpTo (s.retire 2 2) s.ix)

/-- `JP (IY)` (R370). -/
def execJpIY (s : State) : Result := .next (jumpTo (s.retire 2 2) s.iy)

/-- `DJNZ e` (R371). -/
def execDjnzE (e : Byte) (s : State) : Result :=
  let t := (s.retire 2 1).setReg .b (s.main.b - 1)
  .next (if t.main.b != 0 then jumpRelative t e else t)

/-- `CALL nn` (R372). -/
def execCallNN (nn : Word) (s : State) : Result := .next (callTo (s.retire 3 1) nn)

/-- `CALL cc,nn` (R373). -/
def execCallCcNN (cc : Cond) (nn : Word) (s : State) : Result :=
  .next (if condHolds s.main.f cc then callTo (s.retire 3 1) nn else s.retire 3 1)

/-- `RET` (R374). -/
def execRet (s : State) : Result := .next (returnFrom (s.retire 1 1))

/-- `RET cc` (R375). -/
def execRetCc (cc : Cond) (s : State) : Result :=
  .next (if condHolds s.main.f cc then returnFrom (s.retire 1 1) else s.retire 1 1)

/-- `RETI` (R376): `IFF1` and `IFF2` stand. -/
def execReti (s : State) : Result := .next (returnFrom (s.retire 2 2))

/-- `RETN` (R377): `IFF1 <- IFF2`. -/
def execRetn (s : State) : Result := .next { returnFrom (s.retire 2 2) with iff1 := s.iff2 }

/-- `RST p` (R378), `p = 8 * t`. -/
def execRst (t : Nat) (s : State) : Result := .next (callTo (s.retire 1 1) (BitVec.ofNat 16 (8 * t)))

end Sys2Proof.Machine
end

