-- ==== Sys2Proof/Machine/Load.lean ====
section
/-! DEFINITION. The load family (40_load R200 to R240). A meaning is given the state before the step and answers the
state after it (log 12). -/

namespace Sys2Proof.Machine

/-! ### 8-bit loads -/

/-- `LD r,r'` (R200). -/
def execLdRR (r src : Reg8) (s : State) : Result := .next ((s.retire 1 1).setReg r (s.reg src))

/-- `LD r,n` (R201). -/
def execLdRN (r : Reg8) (n : Byte) (s : State) : Result := .next ((s.retire 2 1).setReg r n)

/-- `LD r,(HL)` (R202). -/
def execLdRAtHL (r : Reg8) (s : State) : Result := .next ((s.retire 1 1).setReg r (s.fetch s.hl))

/-- `LD r,(IX+d)` (R203). -/
def execLdRAtIX (r : Reg8) (d : Byte) (s : State) : Result := .next ((s.retire 3 2).setReg r (s.fetch (s.atIX d)))

/-- `LD r,(IY+d)` (R204). -/
def execLdRAtIY (r : Reg8) (d : Byte) (s : State) : Result := .next ((s.retire 3 2).setReg r (s.fetch (s.atIY d)))

/-- `LD (HL),r` (R205). -/
def execLdAtHLR (src : Reg8) (s : State) : Result := .next ((s.retire 1 1).store s.hl (s.reg src))

/-- `LD (IX+d),r` (R206). -/
def execLdAtIXR (d : Byte) (src : Reg8) (s : State) : Result := .next ((s.retire 3 2).store (s.atIX d) (s.reg src))

/-- `LD (IY+d),r` (R207). -/
def execLdAtIYR (d : Byte) (src : Reg8) (s : State) : Result := .next ((s.retire 3 2).store (s.atIY d) (s.reg src))

/-- `LD (HL),n` (R208). -/
def execLdAtHLN (n : Byte) (s : State) : Result := .next ((s.retire 2 1).store s.hl n)

/-- `LD (IX+d),n` (R209). -/
def execLdAtIXN (d n : Byte) (s : State) : Result := .next ((s.retire 4 2).store (s.atIX d) n)

/-- `LD (IY+d),n` (R210). -/
def execLdAtIYN (d n : Byte) (s : State) : Result := .next ((s.retire 4 2).store (s.atIY d) n)

/-- `LD A,(BC)` (R211). -/
def execLdAAtBC (s : State) : Result := .next ((s.retire 1 1).setReg .a (s.fetch s.bc))

/-- `LD A,(DE)` (R212). -/
def execLdAAtDE (s : State) : Result := .next ((s.retire 1 1).setReg .a (s.fetch s.de))

/-- `LD A,(nn)` (R213). -/
def execLdAAtNN (nn : Word) (s : State) : Result := .next ((s.retire 3 1).setReg .a (s.fetch nn))

/-- `LD (BC),A` (R214). -/
def execLdAtBCA (s : State) : Result := .next ((s.retire 1 1).store s.bc s.main.a)

/-- `LD (DE),A` (R215). -/
def execLdAtDEA (s : State) : Result := .next ((s.retire 1 1).store s.de s.main.a)

/-- `LD (nn),A` (R216). -/
def execLdAtNNA (nn : Word) (s : State) : Result := .next ((s.retire 3 1).store nn s.main.a)

/-- `A <- v` with the flags of `LD A,I` and `LD A,R` (R217, R218): `P/V` is `IFF2`, `C` stands. -/
def loadSpecial (t : State) (v : Byte) : State :=
  (t.setReg .a v).setFlags
    { s := v.getLsbD 7, z := v == 0, h := false, pv := t.iff2, n := false, c := t.main.f.c }

/-- `LD A,I` (R217). -/
def execLdAI (s : State) : Result := .next (loadSpecial (s.retire 2 2) s.iReg)

/-- `LD A,R` (R218): `R` after the two steps of this instruction's own fetch. -/
def execLdAR (s : State) : Result := .next (loadSpecial (s.retire 2 2) (s.retire 2 2).rReg)

/-- `LD I,A` (R219). -/
def execLdIA (s : State) : Result := .next { s.retire 2 2 with iReg := s.main.a }

/-- `LD R,A` (R220): all eight bits, after the fetch's steps. -/
def execLdRA (s : State) : Result := .next { s.retire 2 2 with rReg := s.main.a }

/-! ### 16-bit loads -/

/-- `LD dd,nn` (R221). -/
def execLdDDNN (dd : PairDD) (nn : Word) (s : State) : Result := .next ((s.retire 3 1).setPairDD dd nn)

/-- `LD IX,nn` (R222). -/
def execLdIXNN (nn : Word) (s : State) : Result := .next { s.retire 4 2 with ix := nn }

/-- `LD IY,nn` (R223). -/
def execLdIYNN (nn : Word) (s : State) : Result := .next { s.retire 4 2 with iy := nn }

/-- `LD HL,(nn)` (R224). -/
def execLdHLAtNN (nn : Word) (s : State) : Result := .next ((s.retire 3 1).setHL (s.fetch16 nn))

/-- `LD dd,(nn)` (R225). -/
def execLdDDAtNN (dd : PairDD) (nn : Word) (s : State) : Result := .next ((s.retire 4 2).setPairDD dd (s.fetch16 nn))

/-- `LD IX,(nn)` (R226). -/
def execLdIXAtNN (nn : Word) (s : State) : Result := .next { s.retire 4 2 with ix := s.fetch16 nn }

/-- `LD IY,(nn)` (R227). -/
def execLdIYAtNN (nn : Word) (s : State) : Result := .next { s.retire 4 2 with iy := s.fetch16 nn }

/-- `LD (nn),HL` (R228). -/
def execLdAtNNHL (nn : Word) (s : State) : Result := .next ((s.retire 3 1).store16 nn s.hl)

/-- `LD (nn),dd` (R229). -/
def execLdAtNNDD (nn : Word) (dd : PairDD) (s : State) : Result := .next ((s.retire 4 2).store16 nn (s.pairDD dd))

/-- `LD (nn),IX` (R230). -/
def execLdAtNNIX (nn : Word) (s : State) : Result := .next ((s.retire 4 2).store16 nn s.ix)

/-- `LD (nn),IY` (R231). -/
def execLdAtNNIY (nn : Word) (s : State) : Result := .next ((s.retire 4 2).store16 nn s.iy)

/-- `LD SP,HL` (R232). -/
def execLdSPHL (s : State) : Result := .next { s.retire 1 1 with sp := s.hl }

/-- `LD SP,IX` (R233). -/
def execLdSPIX (s : State) : Result := .next { s.retire 2 2 with sp := s.ix }

/-- `LD SP,IY` (R234). -/
def execLdSPIY (s : State) : Result := .next { s.retire 2 2 with sp := s.iy }

/-! ### Stack -/

/-- `PUSH qq` (R235). -/
def execPushQQ (qq : PairQQ) (s : State) : Result := .next ((s.retire 1 1).push16 (s.pairQQ qq))

/-- `PUSH IX` (R236). -/
def execPushIX (s : State) : Result := .next ((s.retire 2 2).push16 s.ix)

/-- `PUSH IY` (R237). -/
def execPushIY (s : State) : Result := .next ((s.retire 2 2).push16 s.iy)

/-- `POP qq` (R238). -/
def execPopQQ (qq : PairQQ) (s : State) : Result := .next ((s.retire 1 1).dropTop.setPairQQ qq s.top16)

/-- `POP IX` (R239). -/
def execPopIX (s : State) : Result := .next { (s.retire 2 2).dropTop with ix := s.top16 }

/-- `POP IY` (R240). -/
def execPopIY (s : State) : Result := .next { (s.retire 2 2).dropTop with iy := s.top16 }

end Sys2Proof.Machine
end

