-- ==== Sys2Proof/Machine/Rotate.lean ====
section
/-! DEFINITION. The rotate and shift family (43_rotate_shift R320 to R333). -/

namespace Sys2Proof.Machine

/-! ### Accumulator rotates: `S`, `Z`, `P/V` stand (R320 to R323) -/

/-- A rotate's result in `A`, `C` the bit shifted out, `H` and `N` clear. -/
def rotateA (t : State) (x : Shift8) : State :=
  (t.setReg .a x.res).setFlags { t.doc with h := false, n := false, c := x.carry }

/-- `RLCA` (R320). -/
def execRlca (s : State) : Result := .next (rotateA (s.retire 1 1) (rlc8 s.main.a))

/-- `RLA` (R321). -/
def execRla (s : State) : Result := .next (rotateA (s.retire 1 1) (rl8 s.main.a s.main.f.c))

/-- `RRCA` (R322). -/
def execRrca (s : State) : Result := .next (rotateA (s.retire 1 1) (rrc8 s.main.a))

/-- `RRA` (R323). -/
def execRra (s : State) : Result := .next (rotateA (s.retire 1 1) (rr8 s.main.a s.main.f.c))

/-! ### The `CB` group on its four operand forms (R324 to R331) -/

/-- A result written back to a register, with the flags of R324. -/
def shiftReg (t : State) (r : Reg8) (x : Shift8) : State := (t.setReg r x.res).setFlags (shiftFlags x.res x.carry)

/-- A result written back to memory, with the flags of R324. -/
def shiftMem (t : State) (a : Word) (x : Shift8) : State := (t.store a x.res).setFlags (shiftFlags x.res x.carry)

/-- `RLC r` (R325). -/
def execRlcR (r : Reg8) (s : State) : Result := .next (shiftReg (s.retire 2 2) r (rlc8 (s.reg r)))

/-- `RLC (HL)` (R325). -/
def execRlcAtHL (s : State) : Result := .next (shiftMem (s.retire 2 2) s.hl (rlc8 (s.fetch s.hl)))

/-- `RLC (IX+d)` (R325). -/
def execRlcAtIX (d : Byte) (s : State) : Result :=
  .next (shiftMem (s.retire 4 2) (s.atIX d) (rlc8 (s.fetch (s.atIX d))))

/-- `RLC (IY+d)` (R325). -/
def execRlcAtIY (d : Byte) (s : State) : Result :=
  .next (shiftMem (s.retire 4 2) (s.atIY d) (rlc8 (s.fetch (s.atIY d))))

/-- `RRC r` (R326). -/
def execRrcR (r : Reg8) (s : State) : Result := .next (shiftReg (s.retire 2 2) r (rrc8 (s.reg r)))

/-- `RRC (HL)` (R326). -/
def execRrcAtHL (s : State) : Result := .next (shiftMem (s.retire 2 2) s.hl (rrc8 (s.fetch s.hl)))

/-- `RRC (IX+d)` (R326). -/
def execRrcAtIX (d : Byte) (s : State) : Result :=
  .next (shiftMem (s.retire 4 2) (s.atIX d) (rrc8 (s.fetch (s.atIX d))))

/-- `RRC (IY+d)` (R326). -/
def execRrcAtIY (d : Byte) (s : State) : Result :=
  .next (shiftMem (s.retire 4 2) (s.atIY d) (rrc8 (s.fetch (s.atIY d))))

/-- `RL r` (R327). -/
def execRlR (r : Reg8) (s : State) : Result := .next (shiftReg (s.retire 2 2) r (rl8 (s.reg r) s.main.f.c))

/-- `RL (HL)` (R327). -/
def execRlAtHL (s : State) : Result := .next (shiftMem (s.retire 2 2) s.hl (rl8 (s.fetch s.hl) s.main.f.c))

/-- `RL (IX+d)` (R327). -/
def execRlAtIX (d : Byte) (s : State) : Result :=
  .next (shiftMem (s.retire 4 2) (s.atIX d) (rl8 (s.fetch (s.atIX d)) s.main.f.c))

/-- `RL (IY+d)` (R327). -/
def execRlAtIY (d : Byte) (s : State) : Result :=
  .next (shiftMem (s.retire 4 2) (s.atIY d) (rl8 (s.fetch (s.atIY d)) s.main.f.c))

/-- `RR r` (R328). -/
def execRrR (r : Reg8) (s : State) : Result := .next (shiftReg (s.retire 2 2) r (rr8 (s.reg r) s.main.f.c))

/-- `RR (HL)` (R328). -/
def execRrAtHL (s : State) : Result := .next (shiftMem (s.retire 2 2) s.hl (rr8 (s.fetch s.hl) s.main.f.c))

/-- `RR (IX+d)` (R328). -/
def execRrAtIX (d : Byte) (s : State) : Result :=
  .next (shiftMem (s.retire 4 2) (s.atIX d) (rr8 (s.fetch (s.atIX d)) s.main.f.c))

/-- `RR (IY+d)` (R328). -/
def execRrAtIY (d : Byte) (s : State) : Result :=
  .next (shiftMem (s.retire 4 2) (s.atIY d) (rr8 (s.fetch (s.atIY d)) s.main.f.c))

/-- `SLA r` (R329). -/
def execSlaR (r : Reg8) (s : State) : Result := .next (shiftReg (s.retire 2 2) r (sla8 (s.reg r)))

/-- `SLA (HL)` (R329). -/
def execSlaAtHL (s : State) : Result := .next (shiftMem (s.retire 2 2) s.hl (sla8 (s.fetch s.hl)))

/-- `SLA (IX+d)` (R329). -/
def execSlaAtIX (d : Byte) (s : State) : Result :=
  .next (shiftMem (s.retire 4 2) (s.atIX d) (sla8 (s.fetch (s.atIX d))))

/-- `SLA (IY+d)` (R329). -/
def execSlaAtIY (d : Byte) (s : State) : Result :=
  .next (shiftMem (s.retire 4 2) (s.atIY d) (sla8 (s.fetch (s.atIY d))))

/-- `SRA r` (R330). -/
def execSraR (r : Reg8) (s : State) : Result := .next (shiftReg (s.retire 2 2) r (sra8 (s.reg r)))

/-- `SRA (HL)` (R330). -/
def execSraAtHL (s : State) : Result := .next (shiftMem (s.retire 2 2) s.hl (sra8 (s.fetch s.hl)))

/-- `SRA (IX+d)` (R330). -/
def execSraAtIX (d : Byte) (s : State) : Result :=
  .next (shiftMem (s.retire 4 2) (s.atIX d) (sra8 (s.fetch (s.atIX d))))

/-- `SRA (IY+d)` (R330). -/
def execSraAtIY (d : Byte) (s : State) : Result :=
  .next (shiftMem (s.retire 4 2) (s.atIY d) (sra8 (s.fetch (s.atIY d))))

/-- `SRL r` (R331). -/
def execSrlR (r : Reg8) (s : State) : Result := .next (shiftReg (s.retire 2 2) r (srl8 (s.reg r)))

/-- `SRL (HL)` (R331). -/
def execSrlAtHL (s : State) : Result := .next (shiftMem (s.retire 2 2) s.hl (srl8 (s.fetch s.hl)))

/-- `SRL (IX+d)` (R331). -/
def execSrlAtIX (d : Byte) (s : State) : Result :=
  .next (shiftMem (s.retire 4 2) (s.atIX d) (srl8 (s.fetch (s.atIX d))))

/-- `SRL (IY+d)` (R331). -/
def execSrlAtIY (d : Byte) (s : State) : Result :=
  .next (shiftMem (s.retire 4 2) (s.atIY d) (srl8 (s.fetch (s.atIY d))))

/-! ### Digit rotates through `(HL)` (R332, R333) -/

/-- The byte at `HL` and `A` replaced, the flags from the new `A`, `C` standing (R332). -/
def digitRotate (t : State) (a : Word) (m acc : Byte) : State :=
  ((t.store a m).setReg .a acc).setFlags (shiftFlags acc t.main.f.c)

/-- `RLD` (R332). -/
def execRld (s : State) : Result :=
  let m := s.fetch s.hl
  .next (digitRotate (s.retire 2 2) s.hl ((m <<< 4) ||| (s.main.a &&& 0x0F#8)) ((s.main.a &&& 0xF0#8) ||| (m >>> 4)))

/-- `RRD` (R333). -/
def execRrd (s : State) : Result :=
  let m := s.fetch s.hl
  .next (digitRotate (s.retire 2 2) s.hl (((s.main.a &&& 0x0F#8) <<< 4) ||| (m >>> 4))
    ((s.main.a &&& 0xF0#8) ||| (m &&& 0x0F#8)))

end Sys2Proof.Machine
end

