-- ==== Sys2Proof/Machine/Dispatch.lean ====
section
/-! DEFINITION. One arm per instruction of the opcode table. -/

namespace Sys2Proof.Machine

/-- What executing instruction `i` at `PC` does to the state before the step (log 12). -/
def exec (i : Instr) (s : State) : Host.Outcome State Fault Refusal :=
  match i with
  -- Load (40_load)
  | .ldRR r src => Sys2Proof.Machine.execLdRR r src s
  | .ldRN r n => Sys2Proof.Machine.execLdRN r n s
  | .ldRAtHL r => Sys2Proof.Machine.execLdRAtHL r s
  | .ldRAtIX r d => Sys2Proof.Machine.execLdRAtIX r d s
  | .ldRAtIY r d => Sys2Proof.Machine.execLdRAtIY r d s
  | .ldAtHLR src => Sys2Proof.Machine.execLdAtHLR src s
  | .ldAtIXR d src => Sys2Proof.Machine.execLdAtIXR d src s
  | .ldAtIYR d src => Sys2Proof.Machine.execLdAtIYR d src s
  | .ldAtHLN n => Sys2Proof.Machine.execLdAtHLN n s
  | .ldAtIXN d n => Sys2Proof.Machine.execLdAtIXN d n s
  | .ldAtIYN d n => Sys2Proof.Machine.execLdAtIYN d n s
  | .ldAAtBC => Sys2Proof.Machine.execLdAAtBC s
  | .ldAAtDE => Sys2Proof.Machine.execLdAAtDE s
  | .ldAAtNN nn => Sys2Proof.Machine.execLdAAtNN nn s
  | .ldAtBCA => Sys2Proof.Machine.execLdAtBCA s
  | .ldAtDEA => Sys2Proof.Machine.execLdAtDEA s
  | .ldAtNNA nn => Sys2Proof.Machine.execLdAtNNA nn s
  | .ldAI => Sys2Proof.Machine.execLdAI s
  | .ldAR => Sys2Proof.Machine.execLdAR s
  | .ldIA => Sys2Proof.Machine.execLdIA s
  | .ldRA => Sys2Proof.Machine.execLdRA s
  | .ldDDNN dd nn => Sys2Proof.Machine.execLdDDNN dd nn s
  | .ldIXNN nn => Sys2Proof.Machine.execLdIXNN nn s
  | .ldIYNN nn => Sys2Proof.Machine.execLdIYNN nn s
  | .ldHLAtNN nn => Sys2Proof.Machine.execLdHLAtNN nn s
  | .ldDDAtNN dd nn => Sys2Proof.Machine.execLdDDAtNN dd nn s
  | .ldIXAtNN nn => Sys2Proof.Machine.execLdIXAtNN nn s
  | .ldIYAtNN nn => Sys2Proof.Machine.execLdIYAtNN nn s
  | .ldAtNNHL nn => Sys2Proof.Machine.execLdAtNNHL nn s
  | .ldAtNNDD nn dd => Sys2Proof.Machine.execLdAtNNDD nn dd s
  | .ldAtNNIX nn => Sys2Proof.Machine.execLdAtNNIX nn s
  | .ldAtNNIY nn => Sys2Proof.Machine.execLdAtNNIY nn s
  | .ldSPHL => Sys2Proof.Machine.execLdSPHL s
  | .ldSPIX => Sys2Proof.Machine.execLdSPIX s
  | .ldSPIY => Sys2Proof.Machine.execLdSPIY s
  | .pushQQ qq => Sys2Proof.Machine.execPushQQ qq s
  | .pushIX => Sys2Proof.Machine.execPushIX s
  | .pushIY => Sys2Proof.Machine.execPushIY s
  | .popQQ qq => Sys2Proof.Machine.execPopQQ qq s
  | .popIX => Sys2Proof.Machine.execPopIX s
  | .popIY => Sys2Proof.Machine.execPopIY s
  -- 8-bit arithmetic and logic (41_arith8_logic)
  | .addR src => Sys2Proof.Machine.execAddR src s
  | .addN n => Sys2Proof.Machine.execAddN n s
  | .addAtHL => Sys2Proof.Machine.execAddAtHL s
  | .addAtIX d => Sys2Proof.Machine.execAddAtIX d s
  | .addAtIY d => Sys2Proof.Machine.execAddAtIY d s
  | .adcR src => Sys2Proof.Machine.execAdcR src s
  | .adcN n => Sys2Proof.Machine.execAdcN n s
  | .adcAtHL => Sys2Proof.Machine.execAdcAtHL s
  | .adcAtIX d => Sys2Proof.Machine.execAdcAtIX d s
  | .adcAtIY d => Sys2Proof.Machine.execAdcAtIY d s
  | .subR src => Sys2Proof.Machine.execSubR src s
  | .subN n => Sys2Proof.Machine.execSubN n s
  | .subAtHL => Sys2Proof.Machine.execSubAtHL s
  | .subAtIX d => Sys2Proof.Machine.execSubAtIX d s
  | .subAtIY d => Sys2Proof.Machine.execSubAtIY d s
  | .sbcR src => Sys2Proof.Machine.execSbcR src s
  | .sbcN n => Sys2Proof.Machine.execSbcN n s
  | .sbcAtHL => Sys2Proof.Machine.execSbcAtHL s
  | .sbcAtIX d => Sys2Proof.Machine.execSbcAtIX d s
  | .sbcAtIY d => Sys2Proof.Machine.execSbcAtIY d s
  | .andR src => Sys2Proof.Machine.execAndR src s
  | .andN n => Sys2Proof.Machine.execAndN n s
  | .andAtHL => Sys2Proof.Machine.execAndAtHL s
  | .andAtIX d => Sys2Proof.Machine.execAndAtIX d s
  | .andAtIY d => Sys2Proof.Machine.execAndAtIY d s
  | .xorR src => Sys2Proof.Machine.execXorR src s
  | .xorN n => Sys2Proof.Machine.execXorN n s
  | .xorAtHL => Sys2Proof.Machine.execXorAtHL s
  | .xorAtIX d => Sys2Proof.Machine.execXorAtIX d s
  | .xorAtIY d => Sys2Proof.Machine.execXorAtIY d s
  | .orR src => Sys2Proof.Machine.execOrR src s
  | .orN n => Sys2Proof.Machine.execOrN n s
  | .orAtHL => Sys2Proof.Machine.execOrAtHL s
  | .orAtIX d => Sys2Proof.Machine.execOrAtIX d s
  | .orAtIY d => Sys2Proof.Machine.execOrAtIY d s
  | .cpR src => Sys2Proof.Machine.execCpR src s
  | .cpN n => Sys2Proof.Machine.execCpN n s
  | .cpAtHL => Sys2Proof.Machine.execCpAtHL s
  | .cpAtIX d => Sys2Proof.Machine.execCpAtIX d s
  | .cpAtIY d => Sys2Proof.Machine.execCpAtIY d s
  | .incR r => Sys2Proof.Machine.execIncR r s
  | .incAtHL => Sys2Proof.Machine.execIncAtHL s
  | .incAtIX d => Sys2Proof.Machine.execIncAtIX d s
  | .incAtIY d => Sys2Proof.Machine.execIncAtIY d s
  | .decR r => Sys2Proof.Machine.execDecR r s
  | .decAtHL => Sys2Proof.Machine.execDecAtHL s
  | .decAtIX d => Sys2Proof.Machine.execDecAtIX d s
  | .decAtIY d => Sys2Proof.Machine.execDecAtIY d s
  | .daa => Sys2Proof.Machine.execDaa s
  | .cpl => Sys2Proof.Machine.execCpl s
  | .neg => Sys2Proof.Machine.execNeg s
  | .ccf => Sys2Proof.Machine.execCcf s
  | .scf => Sys2Proof.Machine.execScf s
  -- 16-bit arithmetic (42_arith16)
  | .addHLSS ss => Sys2Proof.Machine.execAddHLSS ss s
  | .adcHLSS ss => Sys2Proof.Machine.execAdcHLSS ss s
  | .sbcHLSS ss => Sys2Proof.Machine.execSbcHLSS ss s
  | .addIXPP pp => Sys2Proof.Machine.execAddIXPP pp s
  | .addIYRR rr => Sys2Proof.Machine.execAddIYRR rr s
  | .incSS ss => Sys2Proof.Machine.execIncSS ss s
  | .incIX => Sys2Proof.Machine.execIncIX s
  | .incIY => Sys2Proof.Machine.execIncIY s
  | .decSS ss => Sys2Proof.Machine.execDecSS ss s
  | .decIX => Sys2Proof.Machine.execDecIX s
  | .decIY => Sys2Proof.Machine.execDecIY s
  -- Rotate and shift (43_rotate_shift)
  | .rlca => Sys2Proof.Machine.execRlca s
  | .rla => Sys2Proof.Machine.execRla s
  | .rrca => Sys2Proof.Machine.execRrca s
  | .rra => Sys2Proof.Machine.execRra s
  | .rlcR r => Sys2Proof.Machine.execRlcR r s
  | .rlcAtHL => Sys2Proof.Machine.execRlcAtHL s
  | .rlcAtIX d => Sys2Proof.Machine.execRlcAtIX d s
  | .rlcAtIY d => Sys2Proof.Machine.execRlcAtIY d s
  | .rrcR r => Sys2Proof.Machine.execRrcR r s
  | .rrcAtHL => Sys2Proof.Machine.execRrcAtHL s
  | .rrcAtIX d => Sys2Proof.Machine.execRrcAtIX d s
  | .rrcAtIY d => Sys2Proof.Machine.execRrcAtIY d s
  | .rlR r => Sys2Proof.Machine.execRlR r s
  | .rlAtHL => Sys2Proof.Machine.execRlAtHL s
  | .rlAtIX d => Sys2Proof.Machine.execRlAtIX d s
  | .rlAtIY d => Sys2Proof.Machine.execRlAtIY d s
  | .rrR r => Sys2Proof.Machine.execRrR r s
  | .rrAtHL => Sys2Proof.Machine.execRrAtHL s
  | .rrAtIX d => Sys2Proof.Machine.execRrAtIX d s
  | .rrAtIY d => Sys2Proof.Machine.execRrAtIY d s
  | .slaR r => Sys2Proof.Machine.execSlaR r s
  | .slaAtHL => Sys2Proof.Machine.execSlaAtHL s
  | .slaAtIX d => Sys2Proof.Machine.execSlaAtIX d s
  | .slaAtIY d => Sys2Proof.Machine.execSlaAtIY d s
  | .sraR r => Sys2Proof.Machine.execSraR r s
  | .sraAtHL => Sys2Proof.Machine.execSraAtHL s
  | .sraAtIX d => Sys2Proof.Machine.execSraAtIX d s
  | .sraAtIY d => Sys2Proof.Machine.execSraAtIY d s
  | .srlR r => Sys2Proof.Machine.execSrlR r s
  | .srlAtHL => Sys2Proof.Machine.execSrlAtHL s
  | .srlAtIX d => Sys2Proof.Machine.execSrlAtIX d s
  | .srlAtIY d => Sys2Proof.Machine.execSrlAtIY d s
  | .rld => Sys2Proof.Machine.execRld s
  | .rrd => Sys2Proof.Machine.execRrd s
  -- Bit test, set, reset (44_bit)
  | .bitR b r => Sys2Proof.Machine.execBitR b r s
  | .bitAtHL b => Sys2Proof.Machine.execBitAtHL b s
  | .bitAtIX b d => Sys2Proof.Machine.execBitAtIX b d s
  | .bitAtIY b d => Sys2Proof.Machine.execBitAtIY b d s
  | .setR b r => Sys2Proof.Machine.execSetR b r s
  | .setAtHL b => Sys2Proof.Machine.execSetAtHL b s
  | .setAtIX b d => Sys2Proof.Machine.execSetAtIX b d s
  | .setAtIY b d => Sys2Proof.Machine.execSetAtIY b d s
  | .resR b r => Sys2Proof.Machine.execResR b r s
  | .resAtHL b => Sys2Proof.Machine.execResAtHL b s
  | .resAtIX b d => Sys2Proof.Machine.execResAtIX b d s
  | .resAtIY b d => Sys2Proof.Machine.execResAtIY b d s
  -- Jump, call, return, restart (45_jump_call_ret)
  | .jpNN nn => Sys2Proof.Machine.execJpNN nn s
  | .jpCcNN cc nn => Sys2Proof.Machine.execJpCcNN cc nn s
  | .jrE e => Sys2Proof.Machine.execJrE e s
  | .jrCE e => Sys2Proof.Machine.execJrCE e s
  | .jrNcE e => Sys2Proof.Machine.execJrNcE e s
  | .jrZE e => Sys2Proof.Machine.execJrZE e s
  | .jrNzE e => Sys2Proof.Machine.execJrNzE e s
  | .jpHL => Sys2Proof.Machine.execJpHL s
  | .jpIX => Sys2Proof.Machine.execJpIX s
  | .jpIY => Sys2Proof.Machine.execJpIY s
  | .djnzE e => Sys2Proof.Machine.execDjnzE e s
  | .callNN nn => Sys2Proof.Machine.execCallNN nn s
  | .callCcNN cc nn => Sys2Proof.Machine.execCallCcNN cc nn s
  | .ret => Sys2Proof.Machine.execRet s
  | .retCc cc => Sys2Proof.Machine.execRetCc cc s
  | .reti => Sys2Proof.Machine.execReti s
  | .retn => Sys2Proof.Machine.execRetn s
  | .rst t => Sys2Proof.Machine.execRst t s
  -- Input and output (46_io)
  | .inAPortN n => Sys2Proof.Machine.execInAPortN n s
  | .inRPortC r => Sys2Proof.Machine.execInRPortC r s
  | .ini => Sys2Proof.Machine.execIni s
  | .inir => Sys2Proof.Machine.execInir s
  | .ind => Sys2Proof.Machine.execInd s
  | .indr => Sys2Proof.Machine.execIndr s
  | .outPortNA n => Sys2Proof.Machine.execOutPortNA n s
  | .outPortCR src => Sys2Proof.Machine.execOutPortCR src s
  | .outi => Sys2Proof.Machine.execOuti s
  | .otir => Sys2Proof.Machine.execOtir s
  | .outd => Sys2Proof.Machine.execOutd s
  | .otdr => Sys2Proof.Machine.execOtdr s
  -- Block transfer and search (47_block_transfer_search)
  | .ldi => Sys2Proof.Machine.execLdi s
  | .ldir => Sys2Proof.Machine.execLdir s
  | .ldd => Sys2Proof.Machine.execLdd s
  | .lddr => Sys2Proof.Machine.execLddr s
  | .cpi => Sys2Proof.Machine.execCpi s
  | .cpir => Sys2Proof.Machine.execCpir s
  | .cpd => Sys2Proof.Machine.execCpd s
  | .cpdr => Sys2Proof.Machine.execCpdr s
  -- Exchange and CPU control (48_exchange_cpu_control)
  | .exDEHL => Sys2Proof.Machine.execExDEHL s
  | .exAFAF => Sys2Proof.Machine.execExAFAF s
  | .exx => Sys2Proof.Machine.execExx s
  | .exAtSPHL => Sys2Proof.Machine.execExAtSPHL s
  | .exAtSPIX => Sys2Proof.Machine.execExAtSPIX s
  | .exAtSPIY => Sys2Proof.Machine.execExAtSPIY s
  | .nop => Sys2Proof.Machine.execNop s
  | .halt => Sys2Proof.Machine.execHalt s
  | .di => Sys2Proof.Machine.execDi s
  | .ei => Sys2Proof.Machine.execEi s
  | .im0 => Sys2Proof.Machine.execIm0 s
  | .im1 => Sys2Proof.Machine.execIm1 s
  | .im2 => Sys2Proof.Machine.execIm2 s

end Sys2Proof.Machine
end

