-- ==== Sys2Proof/Machine/Step.lean ====
section
/-! DEFINITION. One step of the CPU (30 R121; 10 R25, R32). -/

namespace Sys2Proof.Machine

/-- One step: nothing when halted (10 R32); else the instruction at `PC`, or the unimplemented-opcode event. -/
def step (s : State) : Host.Outcome State Fault Refusal :=
  if s.halted then .next s
  else
    match s.decodeAtPC with
    | .instr i _ => exec i s
    | .unimplemented op _ => .next (s.raiseUnimplemented op)

/-- The state with a row's word stored where the next step fetches its instruction, and awake (log 15). -/
def State.withFetchWord (s : State) (nbits w : Nat) : State :=
  let t := s.plantList s.pc (tableBytes nbits w)
  if s.halted then { t with halted := false, hstate := .idle, report := none } else t

end Sys2Proof.Machine
end

