-- ==== Sys2Proof/Machine/HostOps.lean ====
section
/-! DEFINITION. The host's moves (49 R561, R570 to R577; 70 R651, R652), functions over the state between steps (log 27).
The driver's own state stands in `Driver`, outside `State` (log 22). -/

namespace Sys2Proof.Machine

/-! ### Reset and ROM -/

/-- `reset()` (70 R652). -/
def hostReset (s : State) : State :=
  { s with
    pc := 0x0000, iReg := 0x00, rReg := 0x00, iff1 := false, iff2 := false, im := .im0
    halted := false, report := none, hstate := .idle
    bank := 0x00, outq := [], booting := false, icount := 0 }

/-- The offset of the byte `load_rom` patches (70 R651). -/
def apiTypeOffset : Nat := 0x0112

/-- `load_rom(bytes)` (70 R651); `none` is `RomInvalid`. `tail` gives the ROM bytes past the image, which the spec leaves
open (log 23). -/
def loadRom (image : List Byte) (tail : Memory) (s : State) : Option State :=
  if image.length = 0 ∨ Config.physSize < image.length then none
  else
    let t := { s with rom := tail.writeList 0 image }.clearRam
    some ({ t with rom := t.rom.write apiTypeOffset 0x00 }.copyHead 0)

/-! ### Console -/

/-- A byte appended to `INQ`; `NeedsInput` ends (49 R572). -/
def queueByte (v : Byte) (s : State) : State :=
  { s with inq := s.inq ++ [v], hstate := if s.hstate = .needsInput then .idle else s.hstate }

/-- A list of bytes queued in order. -/
def queueBytes : List Byte → State → State
  | [], s => s
  | v :: rest, s => queueBytes rest (queueByte v s)

/-- The Controlify mode (49 R573). -/
inductive Controlify where
  | off | oneShot | sticky
  deriving DecidableEq, Repr

/-- `filter(ch)`: the byte that comes out (49 R573). -/
def Controlify.apply (mode : Controlify) (ch : Byte) : Byte :=
  match mode with
  | .off => ch
  | .oneShot | .sticky =>
    if (0x40 ≤ ch.toNat ∧ ch.toNat ≤ 0x5F) ∨ (0x61 ≤ ch.toNat ∧ ch.toNat ≤ 0x7A) then ch &&& 0x1F else ch

/-- `filter(ch)`: the mode afterwards (49 R573). -/
def Controlify.after : Controlify → Controlify
  | .off => .off
  | .oneShot => .off
  | .sticky => .sticky

/-! ### Disks (49 R561, R575) -/

/-- `attach(u, bytes, slice_count)`. -/
def attachDisk (i : Fin 16) (bytes : List Byte) (extra : Fin 8) (s : State) : State :=
  s.setUnit i (DiskUnit.attach bytes extra)

/-- `detach(u)`. -/
def detachDisk (i : Fin 16) (s : State) : State := s.setUnit i DiskUnit.absent

/-- `close_all()`. -/
def closeAllDisks (s : State) : State := { s with units := Vector.replicate 16 DiskUnit.absent }

/-- `set_slice_count(u, n)`: a count outside 1..8 changes nothing. -/
def setSliceCount (i : Fin 16) (n : Nat) (s : State) : State :=
  if h : 1 ≤ n ∧ n ≤ 8 then s.setUnit i { s.unitAt i with extraSlices := ⟨n - 1, by omega⟩ } else s

/-- `load_disk(unit, bytes)`: attached with the unit's current slice count (R575). -/
def loadDisk (i : Fin 16) (bytes : List Byte) (s : State) : State := attachDisk i bytes (s.unitAt i).extraSlices s

/-- `save_disk(unit)`: the image, or nothing when the unit is absent. -/
def saveDisk (i : Fin 16) (s : State) : Option (List Byte) :=
  if (s.unitAt i).present then some (s.unitAt i).data.toBytes else none

/-! ### The driver (49 R571, R574, R576, R577) -/

/-- The driver: the machine, its own flag and mode, and the bytes it has given `on_character`, oldest first. -/
structure Driver where
  machine    : State
  running    : Bool
  controlify : Controlify
  delivered  : List Byte
  deriving DecidableEq, Repr

/-- `queue_input(byte)` (R572): through the filter. -/
def Driver.queueInput (d : Driver) (ch : Byte) : Driver :=
  { d with machine := queueByte (d.controlify.apply ch) d.machine, controlify := d.controlify.after }

/-- `set_controlify(mode)` (R573). -/
def Driver.setControlify (d : Driver) (mode : Controlify) : Driver := { d with controlify := mode }

/-- `set_boot_string(s)` (R573): the bytes, then `0x0D`, past the filter. -/
def Driver.setBootString (d : Driver) (text : List Byte) : Driver :=
  { d with machine := queueBytes (text ++ [0x0D]) d.machine }

/-- `start()` (R574). -/
def Driver.start (d : Driver) : Driver := { d with running := true }

/-- `stop()` (R574). -/
def Driver.stop (d : Driver) : Driver := { d with running := false }

/-- `is_running` (R576). -/
def Driver.isRunning (d : Driver) : Bool := d.running

/-- `is_waiting_for_input` (R576). -/
def Driver.isWaitingForInput (d : Driver) : Bool := decide (d.machine.hstate = .needsInput)

/-- `pc`, `sp` and `instruction_count` (R576). -/
def Driver.inspect (d : Driver) : Word × Word × Nat := (d.machine.pc, d.machine.sp, d.machine.icount)

/-- The steps of a batch (R571): up to `n`, ended by `NeedsInput` or `Halted`. -/
def batchSteps : Nat → State → Result
  | 0, s => .next s
  | n + 1, s =>
    match step s with
    | .next t => if t.hstate = .idle then batchSteps n t else .next t
    | .fault r => .fault r
    | .refused r => .refused r

/-- The output ring drained to `on_character` (R571). -/
def Driver.drain (d : Driver) : Driver :=
  { d with delivered := d.delivered ++ d.machine.outq, machine := { d.machine with outq := [] } }

/-- `run_batch(n)` (R571): no step while the driver is not running. -/
def Driver.runBatch (d : Driver) (n : Nat) : Host.Outcome Driver Fault Refusal :=
  match (if d.running then batchSteps n d.machine else .next d.machine) with
  | .next s => .next { d with machine := s }.drain
  | .fault r => .fault r
  | .refused r => .refused r

end Sys2Proof.Machine
end

