-- ==== Sys2Proof/Safety.lean ====
section
/-! DEFINITION. What holds of every state a run reaches (`State.Inv`), and the words the statements use. The words say
what a rule says in the rule's own arithmetic, not by the machine's definitions. -/

namespace Sys2Proof.Machine

/-! ### The invariant -/

/-- A unit as the Disk Store keeps it: its image in canonical form, an absent unit's empty (49 R560). -/
def DiskUnit.ok (u : DiskUnit) : Prop :=
  u.data.bytes.wfBelow u.data.size ∧ (u.present = false → u.data.size = 0)

/-- The invariant of the machine: both memories and every unit's image are in canonical form, within their sizes;
`HSTATE` is `Halted` exactly when `halted` is 1, and `NeedsInput` only with an empty `INQ` (49 R510); there is a report
exactly when the machine is halted (10 R41). -/
structure State.Inv (s : State) : Prop where
  rom     : s.rom.wf
  ram     : s.ram.wf
  units   : ∀ i : Fin 16, (s.unitAt i).ok
  halted  : s.hstate = .halted ↔ s.halted = true
  waiting : s.hstate = .needsInput → s.inq = []
  report  : s.report.isSome = true ↔ s.halted = true

/-! ### Words for statements -/

/-- The bytes `code`, whatever follows them, decode to `i` (30 R121). -/
def decodesTo (code : List Byte) (i : Instr) : Prop := ∀ rest, decode (code ++ rest) = .ok (i, rest)

/-- `R` after `k` opcode fetches: seven bits count, bit 7 stands (10 R29). -/
def refreshed (r : Byte) (k : Nat) : Byte := (r &&& 0x80) ||| ((r + BitVec.ofNat 8 k) &&& 0x7F)

/-- `pcn` of an instruction of `len` bytes (00 R11). -/
def State.pcn (s : State) (len : Nat) : Word := BitVec.ofNat 16 (s.pc.toNat + len)

/-- The state with an instruction of `len` bytes and `k` opcode fetches behind it, and nothing else changed: `PC` at
`pcn`, `R` stepped, `ICOUNT` up by one (10 R25, R29, R42). -/
def fetched (s : State) (len k : Nat) : State :=
  { s with pc := s.pcn len, rReg := refreshed s.rReg k, icount := s.icount + 1 }

/-- The state with the documented flags `f` in `F`, the two storage bits `y` and `x`, and the model's counter at `n`
(10 R27: a statement leaves `y`, `x`, `n` open). -/
def flagged (t : State) (f : DocFlags) (y x : Bool) (n : Nat) : State :=
  { t with main := { t.main with f := { toDocFlags := f, y := y, x := x } }, draws := n }

/-- The byte of `ram` at offset `k` after the stores `stores`, made in order through the window under bank byte `b`, to
a memory whose byte there is `old` (20 R72, R74: a store to ROM changes no byte). -/
def byteAfter (b : Byte) (k : Nat) (old : Byte) : List (Word × Byte) → Byte
  | [] => old
  | (a, v) :: rest => byteAfter b k (if resolve b a = .ram k then v else old) rest

/-- `m` is the `ram` of `s` after these stores through the window, in this order: every byte no store reaches is as
before. -/
def ramAfter (s : State) (m : Memory) (stores : List (Word × Byte)) : Prop :=
  ∀ k, m.read k = byteAfter s.bank k (s.ram.read k) stores

/-- `m` is the `ram` of `s` with the first 512 bytes of `rom` at offset `off` on (20 R75). -/
def ramWithHead (s : State) (m : Memory) (off : Nat) : Prop :=
  ∀ k, m.read k = if off ≤ k ∧ k < off + 512 then s.rom.read (k - off) else s.ram.read k

/-- The accumulator operation `y` of 41 R253 on `A`, an operand `v` and the old carry: the new `A` and the flags
(41 R254 to R261). -/
def accumulator (y : Nat) (a v : Byte) (c : Bool) : Byte × DocFlags :=
  match y with
  | 0 => ((add8 a v false).res, (add8 a v false).flags)
  | 1 => ((add8 a v c).res, (add8 a v c).flags)
  | 2 => ((sub8 a v false).res, (sub8 a v false).flags)
  | 3 => ((sub8 a v c).res, (sub8 a v c).flags)
  | 4 => (a &&& v, logic8 (a &&& v) true)
  | 5 => (a ^^^ v, logic8 (a ^^^ v) false)
  | 6 => (a ||| v, logic8 (a ||| v) false)
  | _ => (a, (sub8 a v false).flags)

/-- The shift `y` of 43 R324 of a byte under the old carry, on numbers: the result and the bit shifted out
(43 R325 to R331). -/
def shifted (y v : Nat) (c : Bool) : Nat × Bool :=
  match y with
  | 0 => (v * 2 % 256 + v / 128, decide (128 ≤ v))
  | 1 => (v / 2 + v % 2 * 128, decide (v % 2 = 1))
  | 2 => (v * 2 % 256 + c.toNat, decide (128 ≤ v))
  | 3 => (v / 2 + c.toNat * 128, decide (v % 2 = 1))
  | 4 => (v * 2 % 256, decide (128 ≤ v))
  | 5 => (v / 2 + v / 128 * 128, decide (v % 2 = 1))
  | _ => (v / 2, decide (v % 2 = 1))

/-- How many 1 bits a number has, of its lowest eight. -/
def ones (n : Nat) : Nat := n % 2 + n / 2 % 2 + n / 4 % 2 + n / 8 % 2 + n / 16 % 2 + n / 32 % 2 + n / 64 % 2 + n / 128 % 2

/-- `S`, `Z`, `P/V` as the sign, zero and even parity of a byte, `N` clear, the given `H` and `C` (41 R252, 43 R324). -/
def parityFlags (v : Byte) (h c : Bool) : DocFlags :=
  { s := decide (128 ≤ v.toNat), z := decide (v.toNat = 0), h := h, pv := decide (ones v.toNat % 2 = 0), n := false,
    c := c }

/-- The byte `n` mod 256. -/
def byteOf (n : Nat) : Byte := BitVec.ofNat 8 n

/-- The six output instructions (46 section 2). -/
def isOutput : Instr → Bool
  | .outPortNA _ | .outPortCR _ | .outi | .otir | .outd | .otdr => true
  | _ => false

/-- The port an output instruction writes (46 R390 item 1). -/
def outputPort (s : State) : Instr → Byte
  | .outPortNA n => n
  | _ => s.main.c

/-- `B` as an output instruction's own updates leave it (46 R390 item 2). -/
def outputB (s : State) : Instr → Byte
  | .outi | .otir | .outd | .otdr => s.main.b - 1
  | _ => s.main.b

/-- The instructions that write no bit of `F`: the rows of dashes of 10 R46. -/
def keepsFlags : Instr → Bool
  | .ldRR _ _ | .ldRN _ _ | .ldRAtHL _ | .ldRAtIX _ _ | .ldRAtIY _ _ | .ldAtHLR _ | .ldAtIXR _ _ | .ldAtIYR _ _
  | .ldAtHLN _ | .ldAtIXN _ _ | .ldAtIYN _ _ | .ldAAtBC | .ldAAtDE | .ldAAtNN _ | .ldAtBCA | .ldAtDEA | .ldAtNNA _
  | .ldIA | .ldRA | .ldDDNN _ _ | .ldIXNN _ | .ldIYNN _ | .ldHLAtNN _ | .ldDDAtNN _ _ | .ldIXAtNN _ | .ldIYAtNN _
  | .ldAtNNHL _ | .ldAtNNDD _ _ | .ldAtNNIX _ | .ldAtNNIY _ | .ldSPHL | .ldSPIX | .ldSPIY
  | .pushQQ _ | .pushIX | .pushIY | .popQQ .bc | .popQQ .de | .popQQ .hl | .popIX | .popIY
  | .incSS _ | .decSS _ | .incIX | .incIY | .decIX | .decIY
  | .setR _ _ | .setAtHL _ | .setAtIX _ _ | .setAtIY _ _ | .resR _ _ | .resAtHL _ | .resAtIX _ _ | .resAtIY _ _
  | .jpNN _ | .jpCcNN _ _ | .jrE _ | .jrCE _ | .jrNcE _ | .jrZE _ | .jrNzE _ | .jpHL | .jpIX | .jpIY | .djnzE _
  | .callNN _ | .callCcNN _ _ | .ret | .retCc _ | .reti | .retn | .rst _
  | .inAPortN _ | .outPortNA _ | .outPortCR _
  | .exDEHL | .exx | .exAtSPHL | .exAtSPIX | .exAtSPIY
  | .nop | .halt | .di | .ei | .im0 | .im1 | .im2 => true
  | _ => false

end Sys2Proof.Machine
end

