-- ==== Sys2Proof/Certificates/Slice0/Obligations.lean ====
section
/-! DEFINITION. The statements for the provers, one definition each. -/

open Sys2Proof Sys2Proof.Machine

/-! ### Encoding -/

/-- Words written out from the spec's encodings decode to the instruction they stand for, one a family (30 R120). -/
def Obligations.EncodingWords : Prop :=
  decodesTo [0b01000001] (.ldRR .b .c) ∧ decodesTo [0b00111110, 0x15] (.ldRN .a 0x15) ∧
  decodesTo [0xDD, 0b01000110, 0xFF] (.ldRAtIX .b 0xFF) ∧ decodesTo [0xED, 0b01111011, 0x00, 0x90] (.ldDDAtNN .sp 0x9000) ∧
  decodesTo [0b10110101] (.orR .l) ∧ decodesTo [0xFD, 0b00101001] (.addIYRR .iy) ∧
  decodesTo [0xDD, 0xCB, 0x7F, 0b00101110] (.sraAtIX 0x7F) ∧ decodesTo [0xCB, 0b01111000] (.bitR 7 .b) ∧
  decodesTo [0b11100010, 0x00, 0xA0] (.jpCcNN .po 0xA000) ∧ decodesTo [0xD3, 0xEF] (.outPortNA 0xEF) ∧
  decodesTo [0xED, 0b10111001] .cpdr ∧ decodesTo [0b01110110] .halt

/-- Decoding the encoding of any instruction the encoding can express gives that instruction, with every operand, and
leaves what follows it (30 R120 to R134). -/
def Obligations.DecodeOfEncode : Prop :=
  ∀ (i : Instr) (rest : List Byte), i.wellFormed = true → decode (encode i ++ rest) = .ok (i, rest)

/-- Bytes that decode to an instruction are its encoding and what follows it, and the instruction is one the encoding
can express: each instruction has one encoding, and each byte sequence at most one meaning (30 R120 to R134). -/
def Obligations.EncodeOfDecode : Prop :=
  ∀ (bytes : List Byte) (i : Instr) (rest : List Byte),
    decode bytes = .ok (i, rest) → bytes = encode i ++ rest ∧ i.wellFormed = true

/-- The unimplemented encodings are the ones the table of R128 lists for the main table, `CB`, `ED`, `DD CB`, `FD CB`,
and for `DD` and `FD` every second byte but `CB` and the 39 of 30_encoding section 5.4; the byte reported is the one
R121 names. -/
def Obligations.UnimplementedSet : Prop :=
  (∀ b0 b1 b2 b3 op : Byte, (∃ n, decode4 b0 b1 b2 b3 = .unimplemented op n) ↔
    (b0 = 0xCB ∧ op = b1 ∧ 0x30 ≤ b1.toNat ∧ b1.toNat ≤ 0x37) ∨
    (b0 = 0xED ∧ op = b1 ∧
      (b1.toNat < 0x40 ∨
       b1.toNat ∈ [0x4C, 0x4E, 0x54, 0x55, 0x5C, 0x5D, 0x64, 0x65, 0x66, 0x6C, 0x6D, 0x6E, 0x70, 0x71, 0x74, 0x75,
         0x76, 0x77, 0x7C, 0x7D, 0x7E, 0x7F] ∨
       (0x80 ≤ b1.toNat ∧ b1.toNat ≤ 0x9F) ∨ (0xA4 ≤ b1.toNat ∧ b1.toNat ≤ 0xA7) ∨
       (0xAC ≤ b1.toNat ∧ b1.toNat ≤ 0xAF) ∨ (0xB4 ≤ b1.toNat ∧ b1.toNat ≤ 0xB7) ∨
       (0xBC ≤ b1.toNat ∧ b1.toNat ≤ 0xBF) ∨ 0xC0 ≤ b1.toNat)) ∨
    ((b0 = 0xDD ∨ b0 = 0xFD) ∧ b1 ≠ 0xCB ∧ op = b1 ∧
      b1.toNat ∉ [0x09, 0x19, 0x21, 0x22, 0x23, 0x29, 0x2A, 0x2B, 0x34, 0x35, 0x36, 0x39, 0x46, 0x4E, 0x56, 0x5E, 0x66,
        0x6E, 0x70, 0x71, 0x72, 0x73, 0x74, 0x75, 0x77, 0x7E, 0x86, 0x8E, 0x96, 0x9E, 0xA6, 0xAE, 0xB6, 0xBE, 0xE1, 0xE3,
        0xE5, 0xE9, 0xF9]) ∨
    ((b0 = 0xDD ∨ b0 = 0xFD) ∧ b1 = 0xCB ∧ op = b3 ∧ (b3.toNat % 8 ≠ 6 ∨ b3 = 0x36)))

/-! ### The step -/

/-- When the machine is not halted and the bytes at `PC` decode to `i`, the step is `exec i`, which itself moves `PC`
past the instruction (log 12). -/
def Obligations.StepRunsDecoded : Prop :=
  ∀ (s : State) (i : Instr) (rest : List Byte), s.halted = false →
    decode [s.fetch s.pc, s.fetch (s.pc + 1), s.fetch (s.pc + 2), s.fetch (s.pc + 3)] = .ok (i, rest) →
    step s = exec i s

/-- While `halted` is 1 a step changes no state at all (10 R32). -/
def Obligations.HaltedStepDoesNothing : Prop := ∀ s : State, s.halted = true → step s = .next s

/-- An unimplemented opcode: the step changes nothing but `halted`, `REPORT` and `HSTATE`; the report names the byte and
the instruction's address (60 R601). -/
def Obligations.UnimplementedStep : Prop :=
  ∀ (s : State) (op : Byte) (rest : List Byte), s.halted = false →
    decode (s.fetch s.pc :: s.fetch (s.pc + 1) :: s.fetch (s.pc + 2) :: s.fetch (s.pc + 3) :: rest) =
      .error (.unimplementedOpcode op) →
    step s = .next { s with halted := true, report := some (.unimplementedOpcode op s.pc), hstate := .halted }

/-- `PC` and `ICOUNT` and `R`: an instruction that is neither annulled (the state before the step, `HSTATE` apart) nor
`LD R,A` adds one to `ICOUNT` and steps `R` twice when its encoding begins with a prefix byte and once otherwise
(10 R29, R42). -/
def Obligations.RefreshAndCount : Prop :=
  ∀ (i : Instr) (s t : State), exec i s = .next t →
    t = { s with hstate := t.hstate } ∨
    (t.icount = s.icount + 1 ∧
      (i ≠ .ldRA →
        t.rReg = refreshed s.rReg
          (if (encode i).head? = some 0xCB ∨ (encode i).head? = some 0xDD ∨ (encode i).head? = some 0xED ∨
              (encode i).head? = some 0xFD then 2 else 1)))

/-! ### Invariants and whole-machine rules -/

/-- The invariant holds right after reset; the values `State.reset` gives what the spec draws there are the model's
(logs 1, 2, 8, 9). -/
def Obligations.InvAtReset : Prop := State.reset.Inv

/-- Every step keeps the invariant, from every state that has it: the canonical form of memory is the model's (logs 2 and
18), the clauses on `HSTATE`, `INQ` and `REPORT` are 49 R510 and 10 R41. -/
def Obligations.InvKept : Prop := ∀ s t : State, s.Inv → step s = .next t → t.Inv

/-- No step, and so no sequence of stores, port writes and HBIOS functions, changes a byte of `rom` (20 R74, R95). -/
def Obligations.RomImmutable : Prop := ∀ s t : State, step s = .next t → t.rom = s.rom

/-- Who writes `IFF1`, `IFF2`, `IM` and `I` (10 R28, R30, R31): `DI`, `EI` and `RETN`; `IM 0`, `IM 1`, `IM 2`;
`LD I,A`; no other instruction and no port write. Only `EX AF,AF'` and `EXX` reach the shadow set; the dispatcher never
does (10 R22). -/
def Obligations.SpecialRegisterWriters : Prop :=
  ∀ (i : Instr) (s t : State), exec i s = .next t →
    (i ≠ .di → i ≠ .ei → i ≠ .retn → t.iff1 = s.iff1) ∧ (i ≠ .di → i ≠ .ei → t.iff2 = s.iff2) ∧
    (i ≠ .im0 → i ≠ .im1 → i ≠ .im2 → t.im = s.im) ∧ (i ≠ .ldIA → t.iReg = s.iReg) ∧
    (i ≠ .exAFAF → i ≠ .exx → t.shadow = s.shadow)

/-- Only an output instruction changes `BANK`, `INITMASK`, the output ring, the disks; only it and an input instruction
touch the input ring; only `HALT` halts (10 R32, R34, 49 R500, R503). -/
def Obligations.DispatcherStateWriters : Prop :=
  ∀ (i : Instr) (s t : State), exec i s = .next t →
    (isOutput i = false → t.bank = s.bank ∧ t.initMask = s.initMask ∧ t.outq = s.outq ∧ t.units = s.units) ∧
    (isOutput i = false → i ≠ .ini → i ≠ .inir → i ≠ .ind → i ≠ .indr → (∀ n, i ≠ .inAPortN n) →
      (∀ r, i ≠ .inRPortC r) → t.inq = s.inq) ∧
    (i ≠ .halt → t.halted = s.halted ∧ t.report = s.report) ∧
    t.booting = s.booting ∧ t.blockingAllowed = s.blockingAllowed

/-- The instructions R46 gives a row of dashes leave all eight bits of `F` unchanged. -/
def Obligations.FlagsKept : Prop :=
  ∀ (i : Instr) (s t : State), keepsFlags i = true → exec i s = .next t → t.main.f = s.main.f

/-- `exec` refuses exactly the four actions R605 names: an output instruction to port `0xED` or `0xEE`, one to `0xEF`
with `SYSBOOT` in `B`, one to `0xEC` with `BC` zero. -/
def Obligations.RefusalsExactly : Prop :=
  ∀ (i : Instr) (s : State), (∃ r, exec i s = .refused r) ↔
    isOutput i = true ∧
      (outputPort s i = 0xED ∨ outputPort s i = 0xEE ∨ (outputPort s i = 0xEF ∧ outputB s i = 0xFE) ∨
        (outputPort s i = 0xEC ∧ outputB s i = 0x00 ∧ s.main.c = 0x00))

/-- The transitions of `HSTATE` in a step (49 R510): it becomes `NeedsInput` only with an empty input ring, where
blocking is not allowed; it becomes `Halted` exactly where `halted` becomes 1; otherwise it stands. -/
def Obligations.HStateTransitions : Prop :=
  ∀ s t : State, s.Inv → step s = .next t →
    (t.hstate = s.hstate ∧ t.halted = s.halted) ∨
    (t.hstate = .needsInput ∧ t.halted = false ∧ s.inq = [] ∧ s.blockingAllowed = false) ∨
    (t.hstate = .halted ∧ t.halted = true ∧ s.halted = false)

/-! ### Memory -/

/-- The mapping `resolve(b, a)` (20 R71), bits 6:4 of the bank byte ignored; every offset lies inside its array; ROM is
never seen at or above `0x8000`; under bank byte `0x8F` the two halves of the window are the same bytes. -/
def Obligations.ResolveMap : Prop :=
  (∀ (b : Byte) (a : Word), 0x8000 ≤ a.toNat → resolve b a = .ram (0x78000 + (a.toNat - 0x8000))) ∧
  (∀ (b : Byte) (a : Word), a.toNat < 0x8000 → 128 ≤ b.toNat → resolve b a = .ram (b.toNat % 16 * 32768 + a.toNat)) ∧
  (∀ (b : Byte) (a : Word), a.toNat < 0x8000 → b.toNat < 128 → resolve b a = .rom (b.toNat % 16 * 32768 + a.toNat)) ∧
  (∀ (b : Byte) (a : Word) (k : Nat), resolve b a = .ram k ∨ resolve b a = .rom k → k < 524288) ∧
  (∀ a : Word, a.toNat < 0x8000 → resolve 0x8F a = resolve 0x8F (a + 0x8000))

/-- `fetch(a)` is the byte of `rom` or `ram` at `resolve(BANK, a)`; `store(a, v)` writes one byte of `ram` and nothing
else, and nothing at all where the address resolves to ROM; `fetch` sees it at every address that resolves to the same
byte, and nowhere else (20 R72, R74). Bank-select isolation (20 R95): a byte stored below `0x8000` under one RAM bank is
not seen below `0x8000` under a bank byte with another bank number. -/
def Obligations.FetchAfterStore : Prop :=
  (∀ (s : State) (a : Word),
    s.fetch a = match resolve s.bank a with | .rom k => s.rom.read k | .ram k => s.ram.read k) ∧
  (∀ (s : State) (a a' : Word) (v : Byte),
    (∃ m, s.store a v = { s with ram := m } ∧ ramAfter s m [(a, v)]) ∧
    (∀ k, resolve s.bank a = .ram k → resolve s.bank a' = .ram k → (s.store a v).fetch a' = v) ∧
    (∀ k, resolve s.bank a = .ram k → resolve s.bank a' ≠ .ram k → (s.store a v).fetch a' = s.fetch a') ∧
    (∀ k, resolve s.bank a = .rom k → s.store a v = s)) ∧
  (∀ (s : State) (b b' : Byte) (a a' : Word) (v : Byte), 128 ≤ b.toNat → b.toNat % 16 ≠ b'.toNat % 16 →
    a.toNat < 0x8000 → a'.toNat < 0x8000 →
    ({ { s with bank := b }.store a v with bank := b' }.fetch a') = { s with bank := b' }.fetch a')

/-- Explicit-bank access (20 R73): `read_bank(b, a)` is the byte of `rom` or `ram` at `resolve(b, a)`; `write_bank` writes
that byte of `ram`, nothing at all in ROM, and changes neither `BANK` nor `INITMASK`; Invariant B: at or above `0x8000`
both reach the common area whatever the bank byte is. -/
def Obligations.ExplicitBankAccess : Prop :=
  ∀ (s : State) (b b' : Byte) (a : Word) (v : Byte),
    (s.readBank b a = match resolve b a with | .rom k => s.rom.read k | .ram k => s.ram.read k) ∧
    (∀ k, resolve b a = .rom k → s.writeBank b a v = s) ∧
    (0x8000 ≤ a.toNat → s.readBank b a = s.fetch a ∧ s.writeBank b a v = s.store a v ∧ s.readBank b' a = s.readBank b a) ∧
    (∃ m, s.writeBank b a v = { s with ram := m } ∧
      ∀ k, m.read k = if resolve b a = .ram k then v else s.ram.read k)

/-- Byte order and the stack (20 R79, R82): a 16-bit read takes its low byte at the address and its high byte at the
next; `Push16` stores the high byte at `SP - 1`, then the low byte at `SP - 2`; `Pop16` reads them back, and what was
pushed is popped where both bytes lie in RAM. -/
def Obligations.WordAndStackAccess : Prop :=
  (∀ (s : State) (a : Word), (s.fetch16 a).toNat = (s.fetch a).toNat + 256 * (s.fetch (a + 1)).toNat) ∧
  (∀ (s : State) (a v : Word), ∃ m, s.store16 a v = { s with ram := m } ∧
    ramAfter s m [(a, byteOf v.toNat), (a + 1, byteOf (v.toNat / 256))]) ∧
  (∀ (s : State) (v : Word), ∃ m, s.push16 v = { s with ram := m, sp := s.sp - 2 } ∧
    ramAfter s m [(s.sp - 1, byteOf (v.toNat / 256)), (s.sp - 2, byteOf v.toNat)]) ∧
  (∀ s : State, s.top16 = s.fetch16 s.sp ∧ s.dropTop = { s with sp := s.sp + 2 }) ∧
  (∀ (s : State) (v : Word) (j k : Nat), resolve s.bank (s.sp - 1) = .ram j → resolve s.bank (s.sp - 2) = .ram k →
    (s.push16 v).top16 = v ∧ (s.push16 v).dropTop.sp = s.sp)

/-- `select_bank(b)` (20 R75) and `clear_ram()` (R76): the first select of a RAM bank copies `rom[0..511]` into it and
sets its bit of `INITMASK`; every other select changes `BANK` alone. -/
def Obligations.SelectBank : Prop :=
  (∀ (s : State) (b : Byte), 128 ≤ b.toNat → s.initMask.getLsbD (b.toNat % 16) = false →
    ∃ m, s.selectBank b = { s with bank := b, ram := m, initMask := s.initMask ||| (1#16 <<< (b.toNat % 16)) } ∧
      ramWithHead s m (b.toNat % 16 * 32768)) ∧
  (∀ (s : State) (b : Byte), b.toNat < 128 ∨ s.initMask.getLsbD (b.toNat % 16) = true →
    s.selectBank b = { s with bank := b }) ∧
  (∀ s : State, ∃ m, s.clearRam = { s with ram := m, initMask := 0 } ∧ ∀ k, m.read k = 0x00)

/-- The canonical form (the model's, logs 2 and 18): a write reads back and disturbs no other byte, keeps the form, and
two memories in the form that read alike are the same data. -/
def Obligations.CanonicalMemory : Prop :=
  (∀ (m : Memory) (a k : Nat) (v : Byte), (m.write a v).read k = if k = a then v else m.read k) ∧
  (∀ (m : Memory) (a : Nat) (v : Byte), m.wf → a < 524288 → (m.write a v).wf) ∧
  (∀ m m' : Memory, m.wf → m'.wf → (∀ a, a < 524288 → m.read a = m'.read a) → m = m')

/-! ### Operands -/

/-- A register written reads back, and no other of the seven, and no flag, changes (10 R20); pairs alias their halves,
the first-named half bits 15:8 (R21); the bits of `F` stand where R26 puts them; `AF` written changes `A` and `F` alone;
the register codes are those of 30 R123 and the four pair tables, codes, reads and writes, those of 30 R124. -/
def Obligations.RegisterFile : Prop :=
  (∀ s : State,
    s.bc.toNat = 256 * s.main.b.toNat + s.main.c.toNat ∧ s.de.toNat = 256 * s.main.d.toNat + s.main.e.toNat ∧
    s.hl.toNat = 256 * s.main.h.toNat + s.main.l.toNat ∧ s.af.toNat = 256 * s.main.a.toNat + s.main.f.toByte.toNat) ∧
  (∀ (s : State) (v : Word),
    s.setBC v = { s with main := { s.main with b := byteOf (v.toNat / 256), c := byteOf v.toNat } } ∧
    s.setDE v = { s with main := { s.main with d := byteOf (v.toNat / 256), e := byteOf v.toNat } } ∧
    s.setHL v = { s with main := { s.main with h := byteOf (v.toNat / 256), l := byteOf v.toNat } } ∧
    (s.setAF v).af = v ∧
    s.setAF v = { s with main := { s.main with a := byteOf (v.toNat / 256), f := (s.setAF v).main.f } }) ∧
  (∀ f : Flags,
    f.toByte.getLsbD 7 = f.s ∧ f.toByte.getLsbD 6 = f.z ∧ f.toByte.getLsbD 5 = f.y ∧ f.toByte.getLsbD 4 = f.h ∧
    f.toByte.getLsbD 3 = f.x ∧ f.toByte.getLsbD 2 = f.pv ∧ f.toByte.getLsbD 1 = f.n ∧ f.toByte.getLsbD 0 = f.c) ∧
  (∀ (x : RegSet) (r : Reg8) (v : Byte),
    (∀ r' : Reg8, (x.set r v).get r' = if r' = r then v else x.get r') ∧ (x.set r v).f = x.f ∧
    x.get .b = x.b ∧ x.get .c = x.c ∧ x.get .d = x.d ∧ x.get .e = x.e ∧ x.get .h = x.h ∧ x.get .l = x.l ∧
    x.get .a = x.a) ∧
  (∀ (s : State) (r : Reg8) (v : Byte), s.reg r = s.main.get r ∧ s.setReg r v = { s with main := s.main.set r v }) ∧
  (∀ s : State,
    (s.pairDD .bc = s.bc ∧ s.pairDD .de = s.de ∧ s.pairDD .hl = s.hl ∧ s.pairDD .sp = s.sp) ∧
    (s.pairQQ .bc = s.bc ∧ s.pairQQ .de = s.de ∧ s.pairQQ .hl = s.hl ∧ s.pairQQ .af = s.af) ∧
    (s.pairPP .bc = s.bc ∧ s.pairPP .de = s.de ∧ s.pairPP .ix = s.ix ∧ s.pairPP .sp = s.sp) ∧
    (s.pairRR .bc = s.bc ∧ s.pairRR .de = s.de ∧ s.pairRR .iy = s.iy ∧ s.pairRR .sp = s.sp)) ∧
  (∀ (s : State) (v : Word),
    (s.setPairDD .bc v = s.setBC v ∧ s.setPairDD .de v = s.setDE v ∧ s.setPairDD .hl v = s.setHL v ∧
      s.setPairDD .sp v = { s with sp := v }) ∧
    (s.setPairQQ .bc v = s.setBC v ∧ s.setPairQQ .de v = s.setDE v ∧ s.setPairQQ .hl v = s.setHL v ∧
      s.setPairQQ .af v = s.setAF v)) ∧
  [Reg8.b, .c, .d, .e, .h, .l, .a].map Reg8.code = [0, 1, 2, 3, 4, 5, 7] ∧
  [PairDD.bc, .de, .hl, .sp].map PairDD.code = [0, 1, 2, 3] ∧
  [PairQQ.bc, .de, .hl, .af].map PairQQ.code = [0, 1, 2, 3] ∧
  [PairPP.bc, .de, .ix, .sp].map PairPP.code = [0, 1, 2, 3] ∧
  [PairRR.bc, .de, .iy, .sp].map PairRR.code = [0, 1, 2, 3]

/-- An indexed address, and a relative target, is the base plus the displacement read as two's complement, mod 65536
(10 R23, 20 R78, 30 R127). -/
def Obligations.IndexedAddress : Prop :=
  ∀ (s : State) (d : Byte) (base : Word),
    s.atIX d = BitVec.ofInt 16 (s.ix.toNat + d.toInt) ∧ s.atIY d = BitVec.ofInt 16 (s.iy.toNat + d.toInt) ∧
    addSigned base d = BitVec.ofInt 16 (base.toNat + d.toInt)

/-! ### Load (40_load) -/

/-- The 8-bit loads into a register (40 R200 to R204, R211 to R213). -/
def Obligations.LoadRegister : Prop :=
  ∀ (r src : Reg8) (n d : Byte) (nn : Word) (s : State),
    (decodesTo [byteOf (0x40 + 8 * r.code + src.code)] (.ldRR r src) ∧
      exec (.ldRR r src) s = .next { fetched s 1 1 with main := s.main.set r (s.reg src) }) ∧
    (decodesTo [byteOf (0x06 + 8 * r.code), n] (.ldRN r n) ∧
      exec (.ldRN r n) s = .next { fetched s 2 1 with main := s.main.set r n }) ∧
    (decodesTo [byteOf (0x46 + 8 * r.code)] (.ldRAtHL r) ∧
      exec (.ldRAtHL r) s = .next { fetched s 1 1 with main := s.main.set r (s.fetch s.hl) }) ∧
    (decodesTo [0xDD, byteOf (0x46 + 8 * r.code), d] (.ldRAtIX r d) ∧
      exec (.ldRAtIX r d) s = .next { fetched s 3 2 with main := s.main.set r (s.fetch (s.atIX d)) }) ∧
    (decodesTo [0xFD, byteOf (0x46 + 8 * r.code), d] (.ldRAtIY r d) ∧
      exec (.ldRAtIY r d) s = .next { fetched s 3 2 with main := s.main.set r (s.fetch (s.atIY d)) }) ∧
    (decodesTo [0x0A] .ldAAtBC ∧
      exec .ldAAtBC s = .next { fetched s 1 1 with main := { s.main with a := s.fetch s.bc } }) ∧
    (decodesTo [0x1A] .ldAAtDE ∧
      exec .ldAAtDE s = .next { fetched s 1 1 with main := { s.main with a := s.fetch s.de } }) ∧
    (decodesTo [0x3A, byteOf nn.toNat, byteOf (nn.toNat / 256)] (.ldAAtNN nn) ∧
      exec (.ldAAtNN nn) s = .next { fetched s 3 1 with main := { s.main with a := s.fetch nn } })

/-- The 8-bit loads into memory (40 R205 to R210, R214 to R216): one store at the address the instruction names. -/
def Obligations.StoreByte : Prop :=
  ∀ (src : Reg8) (n d : Byte) (nn : Word) (s : State),
    (decodesTo [byteOf (0x70 + src.code)] (.ldAtHLR src) ∧
      ∃ m, exec (.ldAtHLR src) s = .next { fetched s 1 1 with ram := m } ∧ ramAfter s m [(s.hl, s.reg src)]) ∧
    (decodesTo [0xDD, byteOf (0x70 + src.code), d] (.ldAtIXR d src) ∧
      ∃ m, exec (.ldAtIXR d src) s = .next { fetched s 3 2 with ram := m } ∧ ramAfter s m [(s.atIX d, s.reg src)]) ∧
    (decodesTo [0xFD, byteOf (0x70 + src.code), d] (.ldAtIYR d src) ∧
      ∃ m, exec (.ldAtIYR d src) s = .next { fetched s 3 2 with ram := m } ∧ ramAfter s m [(s.atIY d, s.reg src)]) ∧
    (decodesTo [0x36, n] (.ldAtHLN n) ∧
      ∃ m, exec (.ldAtHLN n) s = .next { fetched s 2 1 with ram := m } ∧ ramAfter s m [(s.hl, n)]) ∧
    (decodesTo [0xDD, 0x36, d, n] (.ldAtIXN d n) ∧
      ∃ m, exec (.ldAtIXN d n) s = .next { fetched s 4 2 with ram := m } ∧ ramAfter s m [(s.atIX d, n)]) ∧
    (decodesTo [0xFD, 0x36, d, n] (.ldAtIYN d n) ∧
      ∃ m, exec (.ldAtIYN d n) s = .next { fetched s 4 2 with ram := m } ∧ ramAfter s m [(s.atIY d, n)]) ∧
    (decodesTo [0x02] .ldAtBCA ∧
      ∃ m, exec .ldAtBCA s = .next { fetched s 1 1 with ram := m } ∧ ramAfter s m [(s.bc, s.main.a)]) ∧
    (decodesTo [0x12] .ldAtDEA ∧
      ∃ m, exec .ldAtDEA s = .next { fetched s 1 1 with ram := m } ∧ ramAfter s m [(s.de, s.main.a)]) ∧
    (decodesTo [0x32, byteOf nn.toNat, byteOf (nn.toNat / 256)] (.ldAtNNA nn) ∧
      ∃ m, exec (.ldAtNNA nn) s = .next { fetched s 3 1 with ram := m } ∧ ramAfter s m [(nn, s.main.a)])

/-- `LD A,I`, `LD A,R`, `LD I,A`, `LD R,A` (40 R217 to R220): `R` is read after the fetch's own two steps and written
after them; `P/V` is `IFF2`; `C` stands. -/
def Obligations.LoadSpecial : Prop :=
  ∀ s : State,
    (decodesTo [0xED, 0x57] .ldAI ∧ ∃ y x n, exec .ldAI s =
      .next (flagged { fetched s 2 2 with main := { s.main with a := s.iReg } }
        { s := decide (128 ≤ s.iReg.toNat), z := decide (s.iReg = 0), h := false, pv := s.iff2, n := false,
          c := s.main.f.c } y x n)) ∧
    (decodesTo [0xED, 0x5F] .ldAR ∧ ∃ y x n, exec .ldAR s =
      .next (flagged { fetched s 2 2 with main := { s.main with a := refreshed s.rReg 2 } }
        { s := decide (128 ≤ s.rReg.toNat), z := decide (refreshed s.rReg 2 = 0), h := false, pv := s.iff2, n := false,
          c := s.main.f.c } y x n)) ∧
    (decodesTo [0xED, 0x47] .ldIA ∧ exec .ldIA s = .next { fetched s 2 2 with iReg := s.main.a }) ∧
    (decodesTo [0xED, 0x4F] .ldRA ∧ exec .ldRA s = .next { fetched s 2 2 with rReg := s.main.a })

/-- The 16-bit loads of an immediate, of `SP`, and from memory (40 R221 to R227, R232 to R234). -/
def Obligations.LoadPair : Prop :=
  ∀ (dd : PairDD) (nn : Word) (s : State),
    (decodesTo [byteOf (0x01 + 16 * dd.code), byteOf nn.toNat, byteOf (nn.toNat / 256)] (.ldDDNN dd nn) ∧
      exec (.ldDDNN dd nn) s = .next ((fetched s 3 1).setPairDD dd nn)) ∧
    (decodesTo [0xDD, 0x21, byteOf nn.toNat, byteOf (nn.toNat / 256)] (.ldIXNN nn) ∧
      exec (.ldIXNN nn) s = .next { fetched s 4 2 with ix := nn }) ∧
    (decodesTo [0xFD, 0x21, byteOf nn.toNat, byteOf (nn.toNat / 256)] (.ldIYNN nn) ∧
      exec (.ldIYNN nn) s = .next { fetched s 4 2 with iy := nn }) ∧
    (decodesTo [0x2A, byteOf nn.toNat, byteOf (nn.toNat / 256)] (.ldHLAtNN nn) ∧
      exec (.ldHLAtNN nn) s =
        .next { fetched s 3 1 with main := { s.main with h := s.fetch (nn + 1), l := s.fetch nn } }) ∧
    (decodesTo [0xED, byteOf (0x4B + 16 * dd.code), byteOf nn.toNat, byteOf (nn.toNat / 256)] (.ldDDAtNN dd nn) ∧
      exec (.ldDDAtNN dd nn) s = .next ((fetched s 4 2).setPairDD dd (s.fetch16 nn))) ∧
    (decodesTo [0xDD, 0x2A, byteOf nn.toNat, byteOf (nn.toNat / 256)] (.ldIXAtNN nn) ∧
      exec (.ldIXAtNN nn) s = .next { fetched s 4 2 with ix := s.fetch16 nn }) ∧
    (decodesTo [0xFD, 0x2A, byteOf nn.toNat, byteOf (nn.toNat / 256)] (.ldIYAtNN nn) ∧
      exec (.ldIYAtNN nn) s = .next { fetched s 4 2 with iy := s.fetch16 nn }) ∧
    (decodesTo [0xF9] .ldSPHL ∧ exec .ldSPHL s = .next { fetched s 1 1 with sp := s.hl }) ∧
    (decodesTo [0xDD, 0xF9] .ldSPIX ∧ exec .ldSPIX s = .next { fetched s 2 2 with sp := s.ix }) ∧
    (decodesTo [0xFD, 0xF9] .ldSPIY ∧ exec .ldSPIY s = .next { fetched s 2 2 with sp := s.iy })

/-- The 16-bit loads into memory (40 R228 to R231): the low byte at `nn`, then the high byte at `nn + 1`. -/
def Obligations.StoreWord : Prop :=
  ∀ (dd : PairDD) (nn : Word) (s : State),
    (decodesTo [0x22, byteOf nn.toNat, byteOf (nn.toNat / 256)] (.ldAtNNHL nn) ∧
      ∃ m, exec (.ldAtNNHL nn) s = .next { fetched s 3 1 with ram := m } ∧
        ramAfter s m [(nn, s.main.l), (nn + 1, s.main.h)]) ∧
    (decodesTo [0xED, byteOf (0x43 + 16 * dd.code), byteOf nn.toNat, byteOf (nn.toNat / 256)] (.ldAtNNDD nn dd) ∧
      ∃ m, exec (.ldAtNNDD nn dd) s = .next { fetched s 4 2 with ram := m } ∧
        ramAfter s m [(nn, byteOf (s.pairDD dd).toNat), (nn + 1, byteOf ((s.pairDD dd).toNat / 256))]) ∧
    (decodesTo [0xDD, 0x22, byteOf nn.toNat, byteOf (nn.toNat / 256)] (.ldAtNNIX nn) ∧
      ∃ m, exec (.ldAtNNIX nn) s = .next { fetched s 4 2 with ram := m } ∧
        ramAfter s m [(nn, byteOf s.ix.toNat), (nn + 1, byteOf (s.ix.toNat / 256))]) ∧
    (decodesTo [0xFD, 0x22, byteOf nn.toNat, byteOf (nn.toNat / 256)] (.ldAtNNIY nn) ∧
      ∃ m, exec (.ldAtNNIY nn) s = .next { fetched s 4 2 with ram := m } ∧
        ramAfter s m [(nn, byteOf s.iy.toNat), (nn + 1, byteOf (s.iy.toNat / 256))])

/-- `PUSH` and `POP` (40 R235 to R240). -/
def Obligations.PushPop : Prop :=
  ∀ (qq : PairQQ) (s : State),
    (decodesTo [byteOf (0xC5 + 16 * qq.code)] (.pushQQ qq) ∧
      ∃ m, exec (.pushQQ qq) s = .next { fetched s 1 1 with ram := m, sp := s.sp - 2 } ∧
        ramAfter s m [(s.sp - 1, byteOf ((s.pairQQ qq).toNat / 256)), (s.sp - 2, byteOf (s.pairQQ qq).toNat)]) ∧
    (decodesTo [0xDD, 0xE5] .pushIX ∧
      ∃ m, exec .pushIX s = .next { fetched s 2 2 with ram := m, sp := s.sp - 2 } ∧
        ramAfter s m [(s.sp - 1, byteOf (s.ix.toNat / 256)), (s.sp - 2, byteOf s.ix.toNat)]) ∧
    (decodesTo [0xFD, 0xE5] .pushIY ∧
      ∃ m, exec .pushIY s = .next { fetched s 2 2 with ram := m, sp := s.sp - 2 } ∧
        ramAfter s m [(s.sp - 1, byteOf (s.iy.toNat / 256)), (s.sp - 2, byteOf s.iy.toNat)]) ∧
    (decodesTo [byteOf (0xC1 + 16 * qq.code)] (.popQQ qq) ∧
      exec (.popQQ qq) s = .next ({ fetched s 1 1 with sp := s.sp + 2 }.setPairQQ qq (s.fetch16 s.sp))) ∧
    (decodesTo [0xDD, 0xE1] .popIX ∧ exec .popIX s = .next { fetched s 2 2 with sp := s.sp + 2, ix := s.fetch16 s.sp }) ∧
    (decodesTo [0xFD, 0xE1] .popIY ∧ exec .popIY s = .next { fetched s 2 2 with sp := s.sp + 2, iy := s.fetch16 s.sp })

/-! ### 8-bit arithmetic and logic (41_arith8_logic) -/

/-- `add8` (41 R250) and `sub8` (R251): the result mod 256, carry and half carry as the integer sums say, and overflow
exactly where the signed sum leaves -128..127; `parity` and `logic8` (R252), and the flags the rotates share with
them. -/
def Obligations.ByteFlagComputations : Prop :=
  (∀ (a b : Byte) (cin : Bool),
    ((add8 a b cin).res.toNat = (a.toNat + b.toNat + cin.toNat) % 256 ∧
      (add8 a b cin).flags.s = decide (128 ≤ (add8 a b cin).res.toNat) ∧
      (add8 a b cin).flags.z = decide ((add8 a b cin).res = 0) ∧
      (add8 a b cin).flags.h = decide (a.toNat % 16 + b.toNat % 16 + cin.toNat > 15) ∧
      (add8 a b cin).flags.pv = decide (a.toInt + b.toInt + cin.toNat < -128 ∨ 127 < a.toInt + b.toInt + cin.toNat) ∧
      (add8 a b cin).flags.n = false ∧
      (add8 a b cin).flags.c = decide (a.toNat + b.toNat + cin.toNat > 255)) ∧
    (((sub8 a b cin).res.toNat : Int) = ((a.toNat : Int) - b.toNat - cin.toNat) % 256 ∧
      (sub8 a b cin).flags.s = decide (128 ≤ (sub8 a b cin).res.toNat) ∧
      (sub8 a b cin).flags.z = decide ((sub8 a b cin).res = 0) ∧
      (sub8 a b cin).flags.h = decide (a.toNat % 16 < b.toNat % 16 + cin.toNat) ∧
      (sub8 a b cin).flags.pv = decide (a.toInt - b.toInt - cin.toNat < -128 ∨ 127 < a.toInt - b.toInt - cin.toNat) ∧
      (sub8 a b cin).flags.n = true ∧
      (sub8 a b cin).flags.c = decide (a.toNat < b.toNat + cin.toNat))) ∧
  (∀ (v : Byte) (h c : Bool),
    (parity v = true ↔ ones v.toNat % 2 = 0) ∧ logic8 v h = parityFlags v h false ∧
    shiftFlags v c = parityFlags v false c)

/-- The eight accumulator operations in their five forms, forty instructions (41 R253 to R261): `ADD`, `ADC`, `SUB`, `SBC`,
`AND`, `XOR`, `OR` and `CP` of `A` with a register, an immediate, and a byte at `HL`, `IX+d`, `IY+d`. `CP` leaves `A`. -/
def Obligations.AccumulatorOperations : Prop :=
  ∀ (src : Reg8) (n d : Byte) (s : State) (y : Nat) (iR iN iHL iX iY : Instr),
    (y, iR, iN, iHL, iX, iY) ∈
      [(0, .addR src, .addN n, .addAtHL, .addAtIX d, .addAtIY d), (1, .adcR src, .adcN n, .adcAtHL, .adcAtIX d, .adcAtIY d),
       (2, .subR src, .subN n, .subAtHL, .subAtIX d, .subAtIY d), (3, .sbcR src, .sbcN n, .sbcAtHL, .sbcAtIX d, .sbcAtIY d),
       (4, .andR src, .andN n, .andAtHL, .andAtIX d, .andAtIY d), (5, .xorR src, .xorN n, .xorAtHL, .xorAtIX d, .xorAtIY d),
       (6, .orR src, .orN n, .orAtHL, .orAtIX d, .orAtIY d), (7, .cpR src, .cpN n, .cpAtHL, .cpAtIX d, .cpAtIY d)] →
    (decodesTo [byteOf (0x80 + 8 * y + src.code)] iR ∧ ∃ fy fx k, exec iR s =
      .next (flagged { fetched s 1 1 with main := { s.main with a := (accumulator y s.main.a (s.reg src) s.main.f.c).1 } }
        (accumulator y s.main.a (s.reg src) s.main.f.c).2 fy fx k)) ∧
    (decodesTo [byteOf (0xC6 + 8 * y), n] iN ∧ ∃ fy fx k, exec iN s =
      .next (flagged { fetched s 2 1 with main := { s.main with a := (accumulator y s.main.a n s.main.f.c).1 } }
        (accumulator y s.main.a n s.main.f.c).2 fy fx k)) ∧
    (decodesTo [byteOf (0x86 + 8 * y)] iHL ∧ ∃ fy fx k, exec iHL s =
      .next (flagged { fetched s 1 1 with main := { s.main with a := (accumulator y s.main.a (s.fetch s.hl) s.main.f.c).1 } }
        (accumulator y s.main.a (s.fetch s.hl) s.main.f.c).2 fy fx k)) ∧
    (decodesTo [0xDD, byteOf (0x86 + 8 * y), d] iX ∧ ∃ fy fx k, exec iX s =
      .next (flagged
        { fetched s 3 2 with main := { s.main with a := (accumulator y s.main.a (s.fetch (s.atIX d)) s.main.f.c).1 } }
        (accumulator y s.main.a (s.fetch (s.atIX d)) s.main.f.c).2 fy fx k)) ∧
    (decodesTo [0xFD, byteOf (0x86 + 8 * y), d] iY ∧ ∃ fy fx k, exec iY s =
      .next (flagged
        { fetched s 3 2 with main := { s.main with a := (accumulator y s.main.a (s.fetch (s.atIY d)) s.main.f.c).1 } }
        (accumulator y s.main.a (s.fetch (s.atIY d)) s.main.f.c).2 fy fx k))

/-- `INC` and `DEC` of a byte (41 R262 to R269): `C` stands; at a ROM address the flags are set and the byte stands. -/
def Obligations.IncrementDecrement8 : Prop :=
  ∀ (r : Reg8) (d : Byte) (s : State) (z : Nat) (f : Byte → Alu8) (iR iHL iX iY : Instr),
    (z, f, iR, iHL, iX, iY) ∈
      [(4, fun v => add8 v 1 false, .incR r, .incAtHL, .incAtIX d, .incAtIY d),
       (5, fun v => sub8 v 1 false, .decR r, .decAtHL, .decAtIX d, .decAtIY d)] →
    (decodesTo [byteOf (8 * r.code + z)] iR ∧ ∃ fy fx k, exec iR s =
      .next (flagged { fetched s 1 1 with main := s.main.set r (f (s.reg r)).res }
        { (f (s.reg r)).flags with c := s.main.f.c } fy fx k)) ∧
    (decodesTo [byteOf (0x30 + z)] iHL ∧ ∃ fy fx k m, exec iHL s =
      .next (flagged { fetched s 1 1 with ram := m } { (f (s.fetch s.hl)).flags with c := s.main.f.c } fy fx k) ∧
      ramAfter s m [(s.hl, (f (s.fetch s.hl)).res)]) ∧
    (decodesTo [0xDD, byteOf (0x30 + z), d] iX ∧ ∃ fy fx k m, exec iX s =
      .next (flagged { fetched s 3 2 with ram := m } { (f (s.fetch (s.atIX d))).flags with c := s.main.f.c } fy fx k) ∧
      ramAfter s m [(s.atIX d, (f (s.fetch (s.atIX d))).res)]) ∧
    (decodesTo [0xFD, byteOf (0x30 + z), d] iY ∧ ∃ fy fx k m, exec iY s =
      .next (flagged { fetched s 3 2 with ram := m } { (f (s.fetch (s.atIY d))).flags with c := s.main.f.c } fy fx k) ∧
      ramAfter s m [(s.atIY d, (f (s.fetch (s.atIY d))).res)])

/-- `CPL`, `NEG`, `CCF`, `SCF` (41 R271 to R274). -/
def Obligations.AccumulatorAndFlagOperations : Prop :=
  ∀ s : State,
    (decodesTo [0x2F] .cpl ∧ ∃ y x k, exec .cpl s =
      .next (flagged { fetched s 1 1 with main := { s.main with a := byteOf (255 - s.main.a.toNat) } }
        { s.main.f.toDocFlags with h := true, n := true } y x k)) ∧
    (decodesTo [0xED, 0x44] .neg ∧ ∃ y x k, exec .neg s =
      .next (flagged { fetched s 2 2 with main := { s.main with a := (sub8 0 s.main.a false).res } }
        (sub8 0 s.main.a false).flags y x k)) ∧
    (decodesTo [0x3F] .ccf ∧ ∃ y x k, exec .ccf s =
      .next (flagged (fetched s 1 1) { s.main.f.toDocFlags with h := s.main.f.c, n := false, c := !s.main.f.c } y x k)) ∧
    (decodesTo [0x37] .scf ∧ ∃ y x k, exec .scf s =
      .next (flagged (fetched s 1 1) { s.main.f.toDocFlags with h := false, n := false, c := true } y x k))

/-- `DAA` (41 R270), on numbers: the correction, the result and the flags, for every value of `A` and every flag. -/
def Obligations.DecimalAdjust : Prop :=
  ∀ s : State, decodesTo [0x27] .daa ∧
    ∃ (y x : Bool) (k corr : Nat) (res : Byte) (carry : Bool),
      corr = (if s.main.f.h = true ∨ s.main.a.toNat % 16 > 9 then 6 else 0) +
        (if s.main.f.c = true ∨ s.main.a.toNat > 0x99 then 0x60 else 0) ∧
      carry = decide (s.main.f.c = true ∨ s.main.a.toNat > 0x99) ∧
      (s.main.f.n = false → res.toNat = (s.main.a.toNat + corr) % 256) ∧
      (s.main.f.n = true → (res.toNat : Int) = ((s.main.a.toNat : Int) - corr) % 256) ∧
      exec .daa s = .next (flagged { fetched s 1 1 with main := { s.main with a := res } }
        { parityFlags res
            (if s.main.f.n then decide (s.main.f.h = true ∧ s.main.a.toNat % 16 < 6)
              else decide (s.main.a.toNat % 16 > 9)) carry with n := s.main.f.n } y x k)

/-! ### 16-bit arithmetic (42_arith16) -/

/-- `ADD HL,ss`, `ADD IX,pp`, `ADD IY,rr` (42 R300, R303, R304): `S`, `Z`, `P/V` stand. -/
def Obligations.Add16 : Prop :=
  ∀ (ss : PairDD) (pp : PairPP) (rr : PairRR) (s : State),
    (decodesTo [byteOf (0x09 + 16 * ss.code)] (.addHLSS ss) ∧ ∃ y x k, exec (.addHLSS ss) s =
      .next (flagged ((fetched s 1 1).setHL (BitVec.ofNat 16 (s.hl.toNat + (s.pairDD ss).toNat)))
        { s.main.f.toDocFlags with
          h := decide (s.hl.toNat % 4096 + (s.pairDD ss).toNat % 4096 > 4095), n := false,
          c := decide (s.hl.toNat + (s.pairDD ss).toNat > 65535) } y x k)) ∧
    (decodesTo [0xDD, byteOf (0x09 + 16 * pp.code)] (.addIXPP pp) ∧ ∃ y x k, exec (.addIXPP pp) s =
      .next (flagged { fetched s 2 2 with ix := BitVec.ofNat 16 (s.ix.toNat + (s.pairPP pp).toNat) }
        { s.main.f.toDocFlags with
          h := decide (s.ix.toNat % 4096 + (s.pairPP pp).toNat % 4096 > 4095), n := false,
          c := decide (s.ix.toNat + (s.pairPP pp).toNat > 65535) } y x k)) ∧
    (decodesTo [0xFD, byteOf (0x09 + 16 * rr.code)] (.addIYRR rr) ∧ ∃ y x k, exec (.addIYRR rr) s =
      .next (flagged { fetched s 2 2 with iy := BitVec.ofNat 16 (s.iy.toNat + (s.pairRR rr).toNat) }
        { s.main.f.toDocFlags with
          h := decide (s.iy.toNat % 4096 + (s.pairRR rr).toNat % 4096 > 4095), n := false,
          c := decide (s.iy.toNat + (s.pairRR rr).toNat > 65535) } y x k))

/-- `ADC HL,ss` and `SBC HL,ss` (42 R301, R302), on integers; overflow exactly where the signed sum leaves
-32768..32767. -/
def Obligations.AdcSbc16 : Prop :=
  ∀ (ss : PairDD) (s : State),
    (decodesTo [0xED, byteOf (0x4A + 16 * ss.code)] (.adcHLSS ss) ∧ ∃ (y x : Bool) (k : Nat) (res : Word),
      res.toNat = (s.hl.toNat + (s.pairDD ss).toNat + s.main.f.c.toNat) % 65536 ∧
      exec (.adcHLSS ss) s = .next (flagged ((fetched s 2 2).setHL res)
        { s := decide (32768 ≤ res.toNat), z := decide (res.toNat = 0),
          h := decide (s.hl.toNat % 4096 + (s.pairDD ss).toNat % 4096 + s.main.f.c.toNat > 4095),
          pv := decide (s.hl.toInt + (s.pairDD ss).toInt + s.main.f.c.toNat < -32768 ∨
            32767 < s.hl.toInt + (s.pairDD ss).toInt + s.main.f.c.toNat),
          n := false, c := decide (s.hl.toNat + (s.pairDD ss).toNat + s.main.f.c.toNat > 65535) } y x k)) ∧
    (decodesTo [0xED, byteOf (0x42 + 16 * ss.code)] (.sbcHLSS ss) ∧ ∃ (y x : Bool) (k : Nat) (res : Word),
      (res.toNat : Int) = ((s.hl.toNat : Int) - (s.pairDD ss).toNat - s.main.f.c.toNat) % 65536 ∧
      exec (.sbcHLSS ss) s = .next (flagged ((fetched s 2 2).setHL res)
        { s := decide (32768 ≤ res.toNat), z := decide (res.toNat = 0),
          h := decide (s.hl.toNat % 4096 < (s.pairDD ss).toNat % 4096 + s.main.f.c.toNat),
          pv := decide (s.hl.toInt - (s.pairDD ss).toInt - s.main.f.c.toNat < -32768 ∨
            32767 < s.hl.toInt - (s.pairDD ss).toInt - s.main.f.c.toNat),
          n := true, c := decide (s.hl.toNat < (s.pairDD ss).toNat + s.main.f.c.toNat) } y x k))

/-- The 16-bit `INC` and `DEC` (42 R305 to R310): wrap, and no flag is written. -/
def Obligations.IncrementDecrement16 : Prop :=
  ∀ (ss : PairDD) (s : State),
    (decodesTo [byteOf (0x03 + 16 * ss.code)] (.incSS ss) ∧
      exec (.incSS ss) s = .next ((fetched s 1 1).setPairDD ss (BitVec.ofNat 16 ((s.pairDD ss).toNat + 1)))) ∧
    (decodesTo [byteOf (0x0B + 16 * ss.code)] (.decSS ss) ∧
      exec (.decSS ss) s = .next ((fetched s 1 1).setPairDD ss (BitVec.ofNat 16 ((s.pairDD ss).toNat + 65535)))) ∧
    (decodesTo [0xDD, 0x23] .incIX ∧ exec .incIX s = .next { fetched s 2 2 with ix := BitVec.ofNat 16 (s.ix.toNat + 1) }) ∧
    (decodesTo [0xFD, 0x23] .incIY ∧ exec .incIY s = .next { fetched s 2 2 with iy := BitVec.ofNat 16 (s.iy.toNat + 1) }) ∧
    (decodesTo [0xDD, 0x2B] .decIX ∧
      exec .decIX s = .next { fetched s 2 2 with ix := BitVec.ofNat 16 (s.ix.toNat + 65535) }) ∧
    (decodesTo [0xFD, 0x2B] .decIY ∧
      exec .decIY s = .next { fetched s 2 2 with iy := BitVec.ofNat 16 (s.iy.toNat + 65535) })

/-! ### Rotate and shift (43_rotate_shift) -/

/-- `RLCA`, `RRCA`, `RLA`, `RRA` (43 R320 to R323), `S`, `Z`, `P/V` standing; `RLD` and `RRD` (R332, R333) on the digits of
`A` and of the byte at `HL`, the flags from the new `A`, `C` standing. -/
def Obligations.AccumulatorRotates : Prop :=
  (∀ (s : State) (y : Nat) (i : Instr), (y, i) ∈ [(0, Instr.rlca), (1, .rrca), (2, .rla), (3, .rra)] →
    decodesTo [byteOf (0x07 + 8 * y)] i ∧ ∃ fy fx k, exec i s =
      .next (flagged
        { fetched s 1 1 with main := { s.main with a := byteOf (shifted y s.main.a.toNat s.main.f.c).1 } }
        { s.main.f.toDocFlags with h := false, n := false, c := (shifted y s.main.a.toNat s.main.f.c).2 } fy fx k)) ∧
  (∀ s : State,
    (decodesTo [0xED, 0x6F] .rld ∧ ∃ (y x : Bool) (k : Nat) (m : Memory) (a : Byte),
      a.toNat = s.main.a.toNat / 16 * 16 + (s.fetch s.hl).toNat / 16 ∧
      exec .rld s = .next (flagged { fetched s 2 2 with ram := m, main := { s.main with a := a } }
        (parityFlags a false s.main.f.c) y x k) ∧
      ramAfter s m [(s.hl, byteOf ((s.fetch s.hl).toNat % 16 * 16 + s.main.a.toNat % 16))]) ∧
    (decodesTo [0xED, 0x67] .rrd ∧ ∃ (y x : Bool) (k : Nat) (m : Memory) (a : Byte),
      a.toNat = s.main.a.toNat / 16 * 16 + (s.fetch s.hl).toNat % 16 ∧
      exec .rrd s = .next (flagged { fetched s 2 2 with ram := m, main := { s.main with a := a } }
        (parityFlags a false s.main.f.c) y x k) ∧
      ramAfter s m [(s.hl, byteOf (s.main.a.toNat % 16 * 16 + (s.fetch s.hl).toNat / 16))]))

/-- The seven rotates and shifts in their four forms, twenty-eight instructions (43 R324 to R331): `RLC`, `RRC`, `RL`, `RR`,
`SLA`, `SRA`, `SRL` of a register, and of a byte at `HL`, `IX+d`, `IY+d`. -/
def Obligations.RotatesAndShifts : Prop :=
  ∀ (r : Reg8) (d : Byte) (s : State) (y : Nat) (iR iHL iX iY : Instr) (sh : Byte → Nat × Bool),
    (y, iR, iHL, iX, iY) ∈
      [(0, Instr.rlcR r, Instr.rlcAtHL, Instr.rlcAtIX d, Instr.rlcAtIY d), (1, .rrcR r, .rrcAtHL, .rrcAtIX d, .rrcAtIY d),
       (2, .rlR r, .rlAtHL, .rlAtIX d, .rlAtIY d), (3, .rrR r, .rrAtHL, .rrAtIX d, .rrAtIY d),
       (4, .slaR r, .slaAtHL, .slaAtIX d, .slaAtIY d), (5, .sraR r, .sraAtHL, .sraAtIX d, .sraAtIY d),
       (7, .srlR r, .srlAtHL, .srlAtIX d, .srlAtIY d)] →
    (∀ v, sh v = shifted y v.toNat s.main.f.c) →
    (decodesTo [0xCB, byteOf (8 * y + r.code)] iR ∧ ∃ fy fx k, exec iR s =
      .next (flagged { fetched s 2 2 with main := s.main.set r (byteOf (sh (s.reg r)).1) }
        (parityFlags (byteOf (sh (s.reg r)).1) false (sh (s.reg r)).2) fy fx k)) ∧
    (decodesTo [0xCB, byteOf (8 * y + 6)] iHL ∧ ∃ fy fx k m, exec iHL s =
      .next (flagged { fetched s 2 2 with ram := m }
        (parityFlags (byteOf (sh (s.fetch s.hl)).1) false (sh (s.fetch s.hl)).2) fy fx k) ∧
      ramAfter s m [(s.hl, byteOf (sh (s.fetch s.hl)).1)]) ∧
    (decodesTo [0xDD, 0xCB, d, byteOf (8 * y + 6)] iX ∧ ∃ fy fx k m, exec iX s =
      .next (flagged { fetched s 4 2 with ram := m }
        (parityFlags (byteOf (sh (s.fetch (s.atIX d))).1) false (sh (s.fetch (s.atIX d))).2) fy fx k) ∧
      ramAfter s m [(s.atIX d, byteOf (sh (s.fetch (s.atIX d))).1)]) ∧
    (decodesTo [0xFD, 0xCB, d, byteOf (8 * y + 6)] iY ∧ ∃ fy fx k m, exec iY s =
      .next (flagged { fetched s 4 2 with ram := m }
        (parityFlags (byteOf (sh (s.fetch (s.atIY d))).1) false (sh (s.fetch (s.atIY d))).2) fy fx k) ∧
      ramAfter s m [(s.atIY d, byteOf (sh (s.fetch (s.atIY d))).1)])

/-! ### Bit test, set, reset (44_bit) -/

/-- `BIT b,m` in its four forms (44 R350 to R353): `Z` is the complement of the bit; `S` and `P/V` are open. -/
def Obligations.BitTest : Prop :=
  ∀ (b : Nat) (r : Reg8) (d : Byte) (s : State), b < 8 →
    (decodesTo [0xCB, byteOf (0x40 + 8 * b + r.code)] (.bitR b r) ∧ ∃ sf pv y x k, exec (.bitR b r) s =
      .next (flagged (fetched s 2 2)
        { s := sf, z := decide ((s.reg r).toNat / 2 ^ b % 2 = 0), h := true, pv := pv, n := false, c := s.main.f.c } y x k)) ∧
    (decodesTo [0xCB, byteOf (0x46 + 8 * b)] (.bitAtHL b) ∧ ∃ sf pv y x k, exec (.bitAtHL b) s =
      .next (flagged (fetched s 2 2)
        { s := sf, z := decide ((s.fetch s.hl).toNat / 2 ^ b % 2 = 0), h := true, pv := pv, n := false, c := s.main.f.c }
        y x k)) ∧
    (decodesTo [0xDD, 0xCB, d, byteOf (0x46 + 8 * b)] (.bitAtIX b d) ∧ ∃ sf pv y x k, exec (.bitAtIX b d) s =
      .next (flagged (fetched s 4 2)
        { s := sf, z := decide ((s.fetch (s.atIX d)).toNat / 2 ^ b % 2 = 0), h := true, pv := pv, n := false,
          c := s.main.f.c } y x k)) ∧
    (decodesTo [0xFD, 0xCB, d, byteOf (0x46 + 8 * b)] (.bitAtIY b d) ∧ ∃ sf pv y x k, exec (.bitAtIY b d) s =
      .next (flagged (fetched s 4 2)
        { s := sf, z := decide ((s.fetch (s.atIY d)).toNat / 2 ^ b % 2 = 0), h := true, pv := pv, n := false,
          c := s.main.f.c } y x k))

/-- `SET b,m` and `RES b,m` in their four forms (44 R354, R355): bit `b` written, the other bits kept, no flag written. -/
def Obligations.BitSetReset : Prop :=
  ∀ (b : Nat) (r : Reg8) (d : Byte) (s : State) (on : Bool) (op : Nat) (iR iHL iX iY : Instr) (put : Byte → Byte), b < 8 →
    (on, op, iR, iHL, iX, iY) ∈
      [(true, 0xC0, Instr.setR b r, Instr.setAtHL b, Instr.setAtIX b d, Instr.setAtIY b d),
       (false, 0x80, .resR b r, .resAtHL b, .resAtIX b d, .resAtIY b d)] →
    (∀ v k, (put v).getLsbD k = if k = b then on else v.getLsbD k) →
    (decodesTo [0xCB, byteOf (op + 8 * b + r.code)] iR ∧
      exec iR s = .next { fetched s 2 2 with main := s.main.set r (put (s.reg r)) }) ∧
    (decodesTo [0xCB, byteOf (op + 8 * b + 6)] iHL ∧
      ∃ m, exec iHL s = .next { fetched s 2 2 with ram := m } ∧ ramAfter s m [(s.hl, put (s.fetch s.hl))]) ∧
    (decodesTo [0xDD, 0xCB, d, byteOf (op + 8 * b + 6)] iX ∧
      ∃ m, exec iX s = .next { fetched s 4 2 with ram := m } ∧ ramAfter s m [(s.atIX d, put (s.fetch (s.atIX d)))]) ∧
    (decodesTo [0xFD, 0xCB, d, byteOf (op + 8 * b + 6)] iY ∧
      ∃ m, exec iY s = .next { fetched s 4 2 with ram := m } ∧ ramAfter s m [(s.atIY d, put (s.fetch (s.atIY d)))])

/-! ### Jump, call, return (45_jump_call_ret) -/

/-- The conditions (10 R47) and the jumps (45 R361 to R371): the target, or `pcn` where the condition fails; no flag is
written. -/
def Obligations.ConditionsAndJumps : Prop :=
  (∀ (f : Flags) (cc : Cond), condHolds f cc =
    match cc.code with
    | 0 => decide (f.z = false)
    | 1 => decide (f.z = true)
    | 2 => decide (f.c = false)
    | 3 => decide (f.c = true)
    | 4 => decide (f.pv = false)
    | 5 => decide (f.pv = true)
    | 6 => decide (f.s = false)
    | _ => decide (f.s = true)) ∧
  (∀ (cc : Cond) (nn : Word) (e : Byte) (s : State) (rel : Word), rel = BitVec.ofInt 16 ((s.pcn 2).toNat + e.toInt) →
    (decodesTo [0xC3, byteOf nn.toNat, byteOf (nn.toNat / 256)] (.jpNN nn) ∧
      exec (.jpNN nn) s = .next { fetched s 3 1 with pc := nn }) ∧
    (decodesTo [byteOf (0xC2 + 8 * cc.code), byteOf nn.toNat, byteOf (nn.toNat / 256)] (.jpCcNN cc nn) ∧
      exec (.jpCcNN cc nn) s = .next { fetched s 3 1 with pc := if condHolds s.main.f cc then nn else s.pcn 3 }) ∧
    (decodesTo [0x18, e] (.jrE e) ∧ exec (.jrE e) s = .next { fetched s 2 1 with pc := rel }) ∧
    (decodesTo [0x38, e] (.jrCE e) ∧
      exec (.jrCE e) s = .next { fetched s 2 1 with pc := if s.main.f.c = true then rel else s.pcn 2 }) ∧
    (decodesTo [0x30, e] (.jrNcE e) ∧
      exec (.jrNcE e) s = .next { fetched s 2 1 with pc := if s.main.f.c = false then rel else s.pcn 2 }) ∧
    (decodesTo [0x28, e] (.jrZE e) ∧
      exec (.jrZE e) s = .next { fetched s 2 1 with pc := if s.main.f.z = true then rel else s.pcn 2 }) ∧
    (decodesTo [0x20, e] (.jrNzE e) ∧
      exec (.jrNzE e) s = .next { fetched s 2 1 with pc := if s.main.f.z = false then rel else s.pcn 2 }) ∧
    (decodesTo [0xE9] .jpHL ∧ exec .jpHL s = .next { fetched s 1 1 with pc := s.hl }) ∧
    (decodesTo [0xDD, 0xE9] .jpIX ∧ exec .jpIX s = .next { fetched s 2 2 with pc := s.ix }) ∧
    (decodesTo [0xFD, 0xE9] .jpIY ∧ exec .jpIY s = .next { fetched s 2 2 with pc := s.iy }) ∧
    (decodesTo [0x10, e] (.djnzE e) ∧
      exec (.djnzE e) s = .next { fetched s 2 1 with
        main := { s.main with b := byteOf (s.main.b.toNat + 255) }
        pc := if s.main.b.toNat = 1 then s.pcn 2 else rel }))

/-- The calls, the restarts and the returns (45 R372 to R378); `RETN` alone copies `IFF2` to `IFF1`. -/
def Obligations.CallsAndReturns : Prop :=
  ∀ (cc : Cond) (nn : Word) (t : Nat) (s : State),
    (decodesTo [0xCD, byteOf nn.toNat, byteOf (nn.toNat / 256)] (.callNN nn) ∧
      ∃ m, exec (.callNN nn) s = .next { fetched s 3 1 with pc := nn, sp := s.sp - 2, ram := m } ∧
        ramAfter s m [(s.sp - 1, byteOf ((s.pcn 3).toNat / 256)), (s.sp - 2, byteOf (s.pcn 3).toNat)]) ∧
    (decodesTo [byteOf (0xC4 + 8 * cc.code), byteOf nn.toNat, byteOf (nn.toNat / 256)] (.callCcNN cc nn) ∧
      (condHolds s.main.f cc = true →
        ∃ m, exec (.callCcNN cc nn) s = .next { fetched s 3 1 with pc := nn, sp := s.sp - 2, ram := m } ∧
          ramAfter s m [(s.sp - 1, byteOf ((s.pcn 3).toNat / 256)), (s.sp - 2, byteOf (s.pcn 3).toNat)]) ∧
      (condHolds s.main.f cc = false → exec (.callCcNN cc nn) s = .next (fetched s 3 1))) ∧
    (t < 8 → decodesTo [byteOf (0xC7 + 8 * t)] (.rst t) ∧
      ∃ m, exec (.rst t) s = .next { fetched s 1 1 with pc := BitVec.ofNat 16 (8 * t), sp := s.sp - 2, ram := m } ∧
        ramAfter s m [(s.sp - 1, byteOf ((s.pcn 1).toNat / 256)), (s.sp - 2, byteOf (s.pcn 1).toNat)]) ∧
    (decodesTo [0xC9] .ret ∧ exec .ret s = .next { fetched s 1 1 with pc := s.fetch16 s.sp, sp := s.sp + 2 }) ∧
    (decodesTo [byteOf (0xC0 + 8 * cc.code)] (.retCc cc) ∧
      exec (.retCc cc) s = .next (if condHolds s.main.f cc then
        { fetched s 1 1 with pc := s.fetch16 s.sp, sp := s.sp + 2 } else fetched s 1 1)) ∧
    (decodesTo [0xED, 0x4D] .reti ∧ exec .reti s = .next { fetched s 2 2 with pc := s.fetch16 s.sp, sp := s.sp + 2 }) ∧
    (decodesTo [0xED, 0x45] .retn ∧
      exec .retn s = .next { fetched s 2 2 with pc := s.fetch16 s.sp, sp := s.sp + 2, iff1 := s.iff2 })

/-! ### Input and output (46_io, 49_port_dispatcher_hbios) -/

/-- `PortIn(p)` (49 R501): the value returned and the one side effect, for every port. The input instructions (46 R391
to R396): the port read first, then the destination, the counters and the flags; a repeating form leaves `PC` on itself
until `B` is 0; `S`, `H`, `P/V` of the block forms are open. -/
def Obligations.Input : Prop :=
  (∀ (s : State) (v : Byte) (rest : List Byte), s.inq = v :: rest →
    portValue s 0x68 = v ∧ afterPortIn s 0x68 = { s with inq := rest } ∧ portValue s 0x6D = 0x61) ∧
  (∀ s : State, s.inq = [] → portValue s 0x68 = 0x00 ∧ afterPortIn s 0x68 = s ∧ portValue s 0x6D = 0x60) ∧
  (∀ s : State, portValue s 0x78 = s.bank ∧ portValue s 0x7C = s.bank ∧ portValue s 0xFE = 0x00) ∧
  (∀ (s : State) (p : Byte), p ∉ [0x68, 0x6D, 0x78, 0x7C, 0xFE] → portValue s p = 0xFF) ∧
  (∀ (s : State) (p : Byte), p ≠ 0x68 → afterPortIn s p = s) ∧
  (∀ (n : Byte) (s : State), decodesTo [0xDB, n] (.inAPortN n) ∧
    exec (.inAPortN n) s =
      .next { fetched s 2 1 with main := { s.main with a := portValue s n }, inq := (afterPortIn s n).inq }) ∧
  (∀ (r : Reg8) (s : State), decodesTo [0xED, byteOf (0x40 + 8 * r.code)] (.inRPortC r) ∧
    ∃ y x k, exec (.inRPortC r) s =
      .next (flagged { fetched s 2 2 with
          main := s.main.set r (portValue s s.main.c), inq := (afterPortIn s s.main.c).inq }
        (parityFlags (portValue s s.main.c) false s.main.f.c) y x k)) ∧
  (∀ (s : State) (code : Byte) (i : Instr) (delta : Word) (again : Bool),
    (code, i, delta, again) ∈
      [(0xA2, Instr.ini, 1, false), (0xB2, .inir, 1, true), (0xAA, .ind, 0xFFFF, false), (0xBA, .indr, 0xFFFF, true)] →
    decodesTo [0xED, code] i ∧
    ∃ sf h pv y x k m, exec i s =
      .next (flagged
        { ({ fetched s 2 2 with main := { s.main with b := s.main.b - 1 } }.setHL (s.hl + delta)) with
          ram := m, inq := (afterPortIn s s.main.c).inq
          pc := if again = true ∧ s.main.b ≠ 1 then s.pc else s.pcn 2 }
        { s := sf, z := decide (s.main.b = 1), h := h, pv := pv, n := true, c := s.main.f.c } y x k) ∧
      ramAfter s m [(s.hl, portValue s s.main.c)])

/-- The output instructions (46 R397 to R402): the instruction's own updates, with the repeat test, come first, and
`PortOut` sees the registers they leave. `PortOut(p, v)` (49 R502), for every port: append to the output ring, select a
bank, copy, dispatch, refuse, or nothing at all. -/
def Obligations.Output : Prop :=
  (∀ (n : Byte) (s : State), decodesTo [0xD3, n] (.outPortNA n) ∧
    exec (.outPortNA n) s = portOut s (fetched s 2 1) n s.main.a) ∧
  (∀ (src : Reg8) (s : State), decodesTo [0xED, byteOf (0x41 + 8 * src.code)] (.outPortCR src) ∧
    exec (.outPortCR src) s = portOut s (fetched s 2 2) s.main.c (s.reg src)) ∧
  (∀ (s : State) (code : Byte) (i : Instr) (delta : Word) (again : Bool),
    (code, i, delta, again) ∈
      [(0xA3, Instr.outi, 1, false), (0xB3, .otir, 1, true), (0xAB, .outd, 0xFFFF, false), (0xBB, .otdr, 0xFFFF, true)] →
    decodesTo [0xED, code] i ∧
    ∃ sf h pv y x k, exec i s =
      portOut s (flagged
        { ({ fetched s 2 2 with main := { s.main with b := s.main.b - 1 } }.setHL (s.hl + delta)) with
          pc := if again = true ∧ s.main.b ≠ 1 then s.pc else s.pcn 2 }
        { s := sf, z := decide (s.main.b = 1), h := h, pv := pv, n := true, c := s.main.f.c } y x k)
        s.main.c (s.fetch s.hl)) ∧
  (∀ (s t : State) (p v : Byte),
    portOut s t 0x68 v = .next { t with outq := t.outq ++ [v] } ∧
    portOut s t 0x78 v = .next (t.selectBank v) ∧ portOut s t 0x7C v = .next (t.selectBank v) ∧
    portOut s t 0xEC v = bankCopy t ∧ portOut s t 0xED v = .refused .bankCallPort ∧
    portOut s t 0xEE v = .refused .signalPort ∧ portOut s t 0xEF v = hbiosDispatch s t ∧
    (p ∉ [0x68, 0x78, 0x7C, 0xEC, 0xED, 0xEE, 0xEF] → portOut s t p v = .next t))

/-- Every output instruction completes on every port but `0xEC` to `0xEF`: the byte goes to the output ring on port
`0x68`, to the bank register on `0x78` and `0x7C`, nowhere on the rest (46 R397 to R402, 49 R502). -/
def Obligations.OutputCompletes : Prop :=
  ∀ (src : Reg8) (n : Byte) (s : State) (i : Instr) (v : Byte),
    (i, v) ∈ [(Instr.outPortNA n, s.main.a), (.outPortCR src, s.reg src), (.outi, s.fetch s.hl), (.otir, s.fetch s.hl),
      (.outd, s.fetch s.hl), (.otdr, s.fetch s.hl)] →
    outputPort s i ∉ [0xEC, 0xED, 0xEE, 0xEF] →
    ∃ t, exec i s = .next t ∧
      t.outq = (if outputPort s i = 0x68 then s.outq ++ [v] else s.outq) ∧
      t.bank = (if outputPort s i = 0x78 ∨ outputPort s i = 0x7C then v else s.bank) ∧
      t.main.b = outputB s i ∧ t.main.a = s.main.a ∧ t.sp = s.sp ∧ t.inq = s.inq ∧ t.units = s.units

/-- The bank copy (49 R555): refused with `BC = 0`; otherwise byte after byte, ascending, reading through the source
bank and writing through the destination bank; `HL`, `DE`, `BC` are open afterwards and nothing else changes. -/
def Obligations.BankCopy : Prop :=
  (∀ t : State, t.bc = 0 → bankCopy t = .refused .bankCopyZeroLength) ∧
  (∀ t : State, t.bc ≠ 0 →
    ∃ (u : Nat → State) (hl de bc : Word) (k : Nat),
      u 0 = t ∧
      (∀ i, i < t.bc.toNat → u (i + 1) =
        (u i).writeBank (t.fetch 0xFFE7) (t.de + BitVec.ofNat 16 i)
          ((u i).readBank (t.fetch 0xFFE4) (t.hl + BitVec.ofNat 16 i))) ∧
      bankCopy t = .next { (((t.setHL hl).setDE de).setBC bc) with ram := (u t.bc.toNat).ram, draws := k })

/-! ### HBIOS (49 section 3) -/

/-- The console functions (49 R521 to R524), on the state the output instruction left: CIOIN takes the oldest byte, or
with the ring empty answers the state before the step, `HSTATE` apart; CIOOUT, CIOIST, CIOOST. That annulment through
every output instruction (46 R390 item 4): with port `0xEF`, and CIOIN in `B` as the instruction leaves it, nothing of
the instruction's own updates remains. -/
def Obligations.HbiosConsole : Prop :=
  (∀ s t : State,
    (∀ v rest, t.main.b = 0x00 → t.inq = v :: rest → hbiosDispatch s t =
      .next { t with inq := rest, main := { t.main with e := v, a := 0x00 } }) ∧
    (t.main.b = 0x00 → t.inq = [] → s.blockingAllowed = false → hbiosDispatch s t =
      .next { s with hstate := .needsInput }) ∧
    (t.main.b = 0x00 → t.inq = [] → s.blockingAllowed = true → hbiosDispatch s t = .next s) ∧
    (t.main.b = 0x01 → hbiosDispatch s t =
      .next { t with outq := t.outq ++ [t.main.e], main := { t.main with a := 0x00 } }) ∧
    (t.main.b = 0x02 → hbiosDispatch s t =
      .next { t with main := { t.main with a := if t.inq = [] then 0x00 else 0xFF } }) ∧
    (t.main.b = 0x03 → hbiosDispatch s t = .next { t with main := { t.main with a := 0xFF } })) ∧
  (∀ (i : Instr) (s : State), isOutput i = true → outputPort s i = 0xEF → outputB s i = 0x00 → s.inq = [] →
    (s.blockingAllowed = false → exec i s = .next { s with hstate := .needsInput }) ∧
    (s.blockingAllowed = true → exec i s = .next s))

/-- The system functions (49 R540 to R544, R548, R549), on the state the `OUT` instruction left. -/
def Obligations.HbiosSystem : Prop :=
  ∀ s t : State,
    (t.main.b = 0xF0 → t.main.e = 0x01 → hbiosDispatch s t = .next { t with bank := 0x00, pc := 0x0000 }) ∧
    (t.main.b = 0xF0 → t.main.e ≠ 0x01 → ∃ m, hbiosDispatch s t =
        .next { t with bank := 0x00, pc := 0x0000, ram := m, initMask := 0 } ∧
      ∀ k, m.read k = if k < 512 then t.rom.read k else 0x00) ∧
    (t.main.b = 0xF1 → hbiosDispatch s t = .next { t with
      main := { t.main with a := 0x00, l := Config.hbiosVersionMajor, h := Config.hbiosVersionMinor } }) ∧
    (t.main.b = 0xF2 → hbiosDispatch s t =
      .next { t.selectBank t.main.c with main := { t.main with a := 0x00, c := t.bank } }) ∧
    (t.main.b = 0xF3 → hbiosDispatch s t = .next { t with main := { t.main with a := 0x00, c := t.bank } }) ∧
    (t.main.b = 0xF4 → ∃ m, hbiosDispatch s t = .next { t with ram := m, main := { t.main with a := 0x00 } } ∧
      ramAfter t m [(0xFFE4, t.main.e), (0xFFE7, t.main.d)]) ∧
    (t.main.b = 0xFA → hbiosDispatch s t =
      .next { t with main := { t.main with a := 0x00, e := t.readBank t.main.d t.hl } }) ∧
    (t.main.b = 0xFB → ∃ m, hbiosDispatch s t = .next { t with ram := m, main := { t.main with a := 0x00 } } ∧
      ∀ k, m.read k = if resolve t.main.d t.hl = .ram k then t.main.e else t.ram.read k) ∧
    (t.main.b = 0xFE → hbiosDispatch s t = .refused .sysBoot)

/-- DIOSEEK and DIOCAP, and the unit check of the four disk functions (49 R530, R531, R534, R562, R564). -/
def Obligations.HbiosDiskSeekAndCapacity : Prop :=
  ∀ s t : State,
    (t.main.b ∈ [0x12, 0x13, 0x14, 0x1A] → 16 ≤ t.main.c.toNat →
      hbiosDispatch s t = .next { t with main := { t.main with a := 0x01 } }) ∧
    (∀ i : Fin 16, t.main.b ∈ [0x12, 0x13, 0x14, 0x1A] → t.main.c.toNat = i.val → (t.unitAt i).present = false →
      hbiosDispatch s t = .next { t with main := { t.main with a := 0x02 } }) ∧
    (∀ i : Fin 16, t.main.c.toNat = i.val → (t.unitAt i).present = true →
      (t.main.b = 0x12 → ∃ u, hbiosDispatch s t = .next { t with units := u, main := { t.main with a := 0x00 } } ∧
        (∀ j : Fin 16, j ≠ i → u[j.val] = t.unitAt j) ∧
        ∃ p : BitVec 32, u[i.val] = { t.unitAt i with position := p } ∧
          p.toNat = t.main.d.toNat % 128 * 16777216 + t.main.e.toNat * 65536 + t.main.h.toNat * 256 + t.main.l.toNat) ∧
      (t.main.b = 0x1A → ∃ d e h l, hbiosDispatch s t =
          .next { t with main := { t.main with a := 0x00, b := 0x02, c := 0x00, d := d, e := e, h := h, l := l } } ∧
        d.toNat * 16777216 + e.toNat * 65536 + h.toNat * 256 + l.toNat =
          ((t.unitAt i).extraSlices.val + 1) * 16384))

/-- DIOREAD and DIOWRITE on a present unit, for every count in `E` (49 R532, R533, R563): `k`, the number of sectors
done, is the count, or what lies between `position` and the image's last whole sector where that is less; `512 * k` bytes
move, in order, through the window from `HL` on; `position` advances by `k`; `A` is 0, or 3 where fewer than the count
were done; `E` is `k`; a write that moves anything sets `dirty`. `position` stays below 2^32 (log 25). -/
def Obligations.HbiosDiskTransfer : Prop :=
  ∀ (s t : State) (i : Fin 16) (p k : Nat), t.main.c.toNat = i.val → (t.unitAt i).present = true →
    p = (t.unitAt i).position.toNat → k = min t.main.e.toNat ((t.unitAt i).data.size / 512 - p) → p + k < 4294967296 →
    (t.main.b = 0x13 → ∃ m u,
      hbiosDispatch s t = .next { t with
        ram := m, units := u
        main := { t.main with a := if k = t.main.e.toNat then 0x00 else 0x03, e := byteOf k } } ∧
      ramAfter t m ((List.range (512 * k)).map fun q =>
        (t.hl + BitVec.ofNat 16 q, (t.unitAt i).data.bytes.read (p * 512 + q))) ∧
      (∀ j : Fin 16, j ≠ i → u[j.val] = t.unitAt j) ∧
      u[i.val] = { t.unitAt i with position := BitVec.ofNat 32 (p + k) }) ∧
    (t.main.b = 0x14 → ∃ (m : Memory) (u : Vector DiskUnit 16),
      hbiosDispatch s t = .next { t with
        units := u, main := { t.main with a := if k = t.main.e.toNat then 0x00 else 0x03, e := byteOf k } } ∧
      (∀ j : Fin 16, j ≠ i → u[j.val] = t.unitAt j) ∧
      u[i.val] = { t.unitAt i with
        position := BitVec.ofNat 32 (p + k), dirty := decide (k ≠ 0) || (t.unitAt i).dirty,
        data := { size := (t.unitAt i).data.size, bytes := m } } ∧
      ∀ q, m.read q = if p * 512 ≤ q ∧ q < p * 512 + 512 * k then t.fetch (t.hl + BitVec.ofNat 16 (q - p * 512))
        else (t.unitAt i).data.bytes.read q)

/-- Every other function code is `hbios_ext` (49 R519, R550): it completes, and changes at most `A B C D E H L`, `ram` and
the unit table, as a function of what R550 lists; DIORESET, `0x11`, leaves every `dirty` set that was set (R530). -/
def Obligations.HbiosExtFrame : Prop :=
  ∀ s t : State,
    t.main.b ∉ [0x00, 0x01, 0x02, 0x03, 0x12, 0x13, 0x14, 0x1A, 0xF0, 0xF1, 0xF2, 0xF3, 0xF4, 0xFA, 0xFB, 0xFE] →
    ∃ a b c d e h l m u,
      hbiosDispatch s t =
        .next { t with
          main := { t.main with a := a, b := b, c := c, d := d, e := e, h := h, l := l }, ram := m, units := u } ∧
      (t.main.b = 0x11 → ∀ i : Fin 16, (t.unitAt i).dirty = true → u[i.val].dirty = true) ∧
      ∀ (s' t' : State), t'.hbiosArgs = t.hbiosArgs →
        hbiosDispatch s' t' =
          .next { t' with
            main := { t'.main with a := a, b := b, c := c, d := d, e := e, h := h, l := l }, ram := m, units := u }

/-! ### Block transfer and search (47_block_transfer_search) -/

/-- `LDI`, `LDIR`, `LDD`, `LDDR` (47 R420 to R423): one byte moved a step; a repeating form leaves `PC` on itself until `BC`
is 0. -/
def Obligations.BlockTransfer : Prop :=
  ∀ (s : State) (code : Byte) (i : Instr) (delta : Word) (again : Bool),
    (code, i, delta, again) ∈
      [(0xA0, Instr.ldi, 1, false), (0xB0, .ldir, 1, true), (0xA8, .ldd, 0xFFFF, false), (0xB8, .lddr, 0xFFFF, true)] →
    decodesTo [0xED, code] i ∧
    ∃ y x k m, exec i s =
      .next (flagged
        { ((((fetched s 2 2).setHL (s.hl + delta)).setDE (s.de + delta)).setBC (s.bc - 1)) with
          ram := m, pc := if again = true ∧ s.bc ≠ 1 then s.pc else s.pcn 2 }
        { s.main.f.toDocFlags with h := false, n := false, pv := decide (s.bc ≠ 1) } y x k) ∧
      ramAfter s m [(s.de, s.fetch s.hl)]

/-- `CPI`, `CPIR`, `CPD`, `CPDR` (47 R424 to R427): one byte compared a step; a repeating form leaves `PC` on itself until `BC`
is 0 or the bytes are equal; `A` and `C` stand, and no byte of memory changes. -/
def Obligations.BlockSearch : Prop :=
  ∀ (s : State) (code : Byte) (i : Instr) (delta : Word) (again : Bool),
    (code, i, delta, again) ∈
      [(0xA1, Instr.cpi, 1, false), (0xB1, .cpir, 1, true), (0xA9, .cpd, 0xFFFF, false), (0xB9, .cpdr, 0xFFFF, true)] →
    decodesTo [0xED, code] i ∧
    ∃ y x k, exec i s =
      .next (flagged
        { (((fetched s 2 2).setHL (s.hl + delta)).setBC (s.bc - 1)) with
          pc := if again = true ∧ s.bc ≠ 1 ∧ s.main.a ≠ s.fetch s.hl then s.pc else s.pcn 2 }
        { s := decide (128 ≤ ((s.main.a.toNat : Int) - (s.fetch s.hl).toNat) % 256),
          z := decide (s.main.a = s.fetch s.hl),
          h := decide (s.main.a.toNat % 16 < (s.fetch s.hl).toNat % 16),
          pv := decide (s.bc ≠ 1), n := true, c := s.main.f.c } y x k)

/-! ### Exchange and CPU control (48_exchange_cpu_control) -/

/-- The exchanges (48 R440 to R445): both reads of `EX (SP),HL` come before both writes. -/
def Obligations.Exchanges : Prop :=
  ∀ s : State,
    (decodesTo [0xEB] .exDEHL ∧ exec .exDEHL s =
      .next { fetched s 1 1 with main := { s.main with d := s.main.h, e := s.main.l, h := s.main.d, l := s.main.e } }) ∧
    (decodesTo [0x08] .exAFAF ∧ exec .exAFAF s = .next { fetched s 1 1 with
      main := { s.main with a := s.shadow.a, f := s.shadow.f }
      shadow := { s.shadow with a := s.main.a, f := s.main.f } }) ∧
    (decodesTo [0xD9] .exx ∧ exec .exx s = .next { fetched s 1 1 with
      main := { s.main with
        b := s.shadow.b, c := s.shadow.c, d := s.shadow.d, e := s.shadow.e, h := s.shadow.h, l := s.shadow.l }
      shadow := { s.shadow with
        b := s.main.b, c := s.main.c, d := s.main.d, e := s.main.e, h := s.main.h, l := s.main.l } }) ∧
    (decodesTo [0xE3] .exAtSPHL ∧ ∃ m, exec .exAtSPHL s = .next { fetched s 1 1 with
        ram := m, main := { s.main with h := s.fetch (s.sp + 1), l := s.fetch s.sp } } ∧
      ramAfter s m [(s.sp, s.main.l), (s.sp + 1, s.main.h)]) ∧
    (decodesTo [0xDD, 0xE3] .exAtSPIX ∧ ∃ m, exec .exAtSPIX s = .next { fetched s 2 2 with
        ram := m, ix := s.fetch16 s.sp } ∧
      ramAfter s m [(s.sp, byteOf s.ix.toNat), (s.sp + 1, byteOf (s.ix.toNat / 256))]) ∧
    (decodesTo [0xFD, 0xE3] .exAtSPIY ∧ ∃ m, exec .exAtSPIY s = .next { fetched s 2 2 with
        ram := m, iy := s.fetch16 s.sp } ∧
      ramAfter s m [(s.sp, byteOf s.iy.toNat), (s.sp + 1, byteOf (s.iy.toNat / 256))])

/-- `NOP`, `HALT`, `DI`, `EI`, `IM 0`, `IM 1`, `IM 2` (48 R446 to R452). -/
def Obligations.CpuControl : Prop :=
  ∀ s : State,
    (decodesTo [0x00] .nop ∧ exec .nop s = .next (fetched s 1 1)) ∧
    (decodesTo [0x76] .halt ∧ exec .halt s =
      .next { fetched s 1 1 with halted := true, report := some .haltExecuted, hstate := .halted }) ∧
    (decodesTo [0xF3] .di ∧ exec .di s = .next { fetched s 1 1 with iff1 := false, iff2 := false }) ∧
    (decodesTo [0xFB] .ei ∧ exec .ei s = .next { fetched s 1 1 with iff1 := true, iff2 := true }) ∧
    (decodesTo [0xED, 0x46] .im0 ∧ exec .im0 s = .next { fetched s 2 2 with im := .im0 }) ∧
    (decodesTo [0xED, 0x56] .im1 ∧ exec .im1 s = .next { fetched s 2 2 with im := .im1 }) ∧
    (decodesTo [0xED, 0x5E] .im2 ∧ exec .im2 s = .next { fetched s 2 2 with im := .im2 })

/-! ### Reset and the host (70_reset_and_hazards, 49 section 6) -/

/-- What the spec gives at power-on (70 R650, 10 R60), whatever the values it leaves open are (log 24); `State.reset` is
one such state, with the model's values for them (logs 1, 2, 8, 9). -/
def Obligations.PowerOn : Prop :=
  (∀ (main shadow : RegSet) (ix iy sp : Word) (rom ram : Memory) (blocking : Bool) (units : Vector DiskUnit 16)
      (s : State), s = State.powerOn main shadow ix iy sp rom ram blocking units →
    s.pc = 0 ∧ s.iReg = 0 ∧ s.rReg = 0 ∧ s.iff1 = false ∧ s.iff2 = false ∧ s.im = .im0 ∧ s.halted = false ∧ s.bank = 0 ∧
    s.initMask = 0 ∧ s.hstate = .idle ∧ s.inq = [] ∧ s.outq = [] ∧ s.booting = false ∧ s.report = none ∧ s.icount = 0) ∧
  ∃ main shadow ix iy sp rom ram blocking units,
    State.reset = State.powerOn main shadow ix iy sp rom ram blocking units

/-- `reset()` (70 R652): what it writes, that it changes nothing else, and that two in a row are one; the last clause is
about the model's invariant, whose canonical form of memory is the model's choice (logs 2 and 18). -/
def Obligations.HostReset : Prop :=
  ∀ s : State,
    hostReset s = { s with
      pc := 0x0000, iReg := 0x00, rReg := 0x00, iff1 := false, iff2 := false, im := .im0, halted := false, report := none,
      hstate := .idle, bank := 0x00, outq := [], booting := false, icount := 0 } ∧
    hostReset (hostReset s) = hostReset s ∧ (s.Inv → (hostReset s).Inv)

/-- `load_rom(bytes)` (70 R651): fails on an empty or over-long image; otherwise the image at offset 0 with the byte at
`0x0112` zero, `ram` zero but for the copy of the first 512 bytes, `INITMASK` zero, nothing else changed. The bytes past the image are
open (log 23); the last clause is about the model's invariant (logs 2 and 18). -/
def Obligations.LoadRom : Prop :=
  ∀ (image : List Byte) (tail : Memory) (s : State),
    (loadRom image tail s = none ↔ image.length = 0 ∨ 524288 < image.length) ∧
    (0 < image.length → image.length ≤ 524288 →
      ∃ rom ram, loadRom image tail s = some { s with rom := rom, ram := ram, initMask := 0 } ∧
        (∀ k, k < image.length → k ≠ 0x0112 → rom.read k = image.getD k 0) ∧ rom.read 0x0112 = 0x00 ∧
        (∀ k, ram.read k = if k < 512 then rom.read k else 0x00) ∧ (s.Inv → tail.wf →
          { s with rom := rom, ram := ram, initMask := 0 }.Inv))
end

