-- ==== Sys2Proof/Laws/Memory.lean ====
section
/-! SUPPORT. The laws of one physical memory: a read after a write, and that every operation keeps the canonical form. -/

namespace Sys2Proof.Machine

/-! ### Reading after writing -/

theorem readCells_eraseCell (a k : Nat) (l : List Host.Cell) :
    readCells k (eraseCell a l) = if k = a then Memory.fill else readCells k l := by
  induction l with
  | nil => simp [eraseCell, readCells]
  | cons c rest ih =>
    obtain ⟨j, v⟩ := c
    simp only [eraseCell]
    split
    · rename_i hj
      rw [ih]
      by_cases hk : k = a
      · simp [hk]
      · have : j ≠ k := by omega
        simp [hk, readCells, this]
    · rename_i hj
      simp only [readCells, ih]
      by_cases hjk : j = k
      · have : k ≠ a := by omega
        simp [hjk, this]
      · simp [hjk]

theorem readCells_insertCell (a k : Nat) (v : Byte) (l : List Host.Cell) (h : ∀ c ∈ l, c.1 ≠ a) :
    readCells k (insertCell a v l) = if a = k then v else readCells k l := by
  induction l with
  | nil => simp [insertCell, readCells]
  | cons c rest ih =>
    obtain ⟨j, w⟩ := c
    have hj : j ≠ a := h (j, w) (by simp)
    have ih := ih fun c hc => h c (List.mem_cons_of_mem _ hc)
    simp only [insertCell]
    split
    · simp [readCells]
    · simp only [readCells, ih]
      by_cases hjk : j = k
      · have : a ≠ k := by omega
        simp [hjk, this]
      · simp [hjk]

theorem not_mem_eraseCell (a : Nat) (l : List Host.Cell) : ∀ c ∈ eraseCell a l, c.1 ≠ a := by
  induction l with
  | nil => simp [eraseCell]
  | cons c rest ih =>
    obtain ⟨j, w⟩ := c
    intro c hc
    by_cases hj : j = a
    · rw [eraseCell, if_pos hj] at hc
      exact ih c hc
    · rw [eraseCell, if_neg hj] at hc
      rcases List.mem_cons.1 hc with hc | hc
      · simp [hc, hj]
      · exact ih c hc

/-- A byte read after a write: the written byte at its own address, the old byte elsewhere. -/
theorem Memory.read_write (m : Memory) (a k : Nat) (v : Byte) :
    (m.write a v).read k = if k = a then v else m.read k := by
  unfold Memory.write Memory.read
  split
  · rename_i hv
    rw [readCells_eraseCell, hv]
  · rw [readCells_insertCell a k v _ (not_mem_eraseCell a m.cells), readCells_eraseCell]
    by_cases h : k = a
    · simp [h]
    · simp [h, Ne.symm h]

@[simp] theorem Memory.read_write_same (m : Memory) (a : Nat) (v : Byte) : (m.write a v).read a = v := by
  simp [Memory.read_write]

theorem Memory.read_write_of_ne (m : Memory) {a k : Nat} (v : Byte) (h : k ≠ a) :
    (m.write a v).read k = m.read k := by
  simp [Memory.read_write, h]

@[simp] theorem Memory.read_blank (k : Nat) : Memory.blank.read k = 0x00 := rfl

@[simp] theorem Memory.length_readList (m : Memory) (a n : Nat) : (m.readList a n).length = n := by
  induction n generalizing a with
  | zero => rfl
  | succ n ih => simp [Memory.readList, ih]

theorem Memory.getD_readList (m : Memory) (a n k : Nat) (h : k < n) (w : Byte) :
    (m.readList a n).getD k w = m.read (a + k) := by
  induction n generalizing a k with
  | zero => omega
  | succ n ih =>
    cases k with
    | zero => simp [Memory.readList]
    | succ k =>
      have := ih (a + 1) k (by omega)
      simp only [List.getD_eq_getElem?_getD, Memory.readList, List.getElem?_cons_succ] at this ⊢
      rw [this]; congr 1; omega

/-- A byte read after a list of bytes is written from `a` on. -/
theorem Memory.read_writeList (m : Memory) (a k : Nat) (l : List Byte) :
    (m.writeList a l).read k = if a ≤ k ∧ k < a + l.length then l.getD (k - a) 0 else m.read k := by
  induction l generalizing m a with
  | nil => simp only [Memory.writeList, List.length_nil]; split <;> first | omega | rfl
  | cons v rest ih =>
    simp only [Memory.writeList, ih, Memory.read_write, List.length_cons]
    by_cases h1 : k = a
    · subst h1
      rw [if_neg (by omega), if_pos rfl, if_pos (by omega)]; simp
    · by_cases h2 : a ≤ k ∧ k < a + (rest.length + 1)
      · rw [if_pos (by omega), if_pos h2]
        have : k - a = (k - (a + 1)) + 1 := by omega
        rw [this]; simp
      · rw [if_neg (by omega), if_neg h1, if_neg h2]

theorem Memory.readList_add (m : Memory) (a j n : Nat) :
    m.readList a (j + n) = m.readList a j ++ m.readList (a + j) n := by
  induction j generalizing a with
  | zero => simp [Memory.readList]
  | succ j ih => rw [Nat.succ_add, Memory.readList, ih, Memory.readList, Nat.add_assoc, Nat.add_comm 1 j]; rfl

theorem Memory.writeList_append (m : Memory) (a : Nat) (l r : List Byte) :
    m.writeList a (l ++ r) = (m.writeList a l).writeList (a + l.length) r := by
  induction l generalizing m a with
  | nil => rfl
  | cons v rest ih =>
    rw [List.cons_append, Memory.writeList, ih, Memory.writeList, List.length_cons, Nat.add_assoc, Nat.add_comm 1]

/-! ### The canonical form -/

theorem mem_eraseCell {a : Nat} {c : Host.Cell} {l : List Host.Cell} (h : c ∈ eraseCell a l) : c ∈ l := by
  induction l with
  | nil => simp [eraseCell] at h
  | cons d rest ih =>
    obtain ⟨j, w⟩ := d
    by_cases hj : j = a
    · simp only [eraseCell, hj, ↓reduceIte] at h; exact List.mem_cons_of_mem _ (ih h)
    · simp only [eraseCell, hj, ↓reduceIte, List.mem_cons] at h
      rcases h with h | h
      · simp [h]
      · exact List.mem_cons_of_mem _ (ih h)

theorem mem_insertCell {a : Nat} {v : Byte} {c : Host.Cell} {l : List Host.Cell} (h : c ∈ insertCell a v l) :
    c = (a, v) ∨ c ∈ l := by
  induction l with
  | nil => simpa [insertCell] using h
  | cons d rest ih =>
    obtain ⟨j, w⟩ := d
    simp only [insertCell] at h
    split at h <;> simp only [List.mem_cons] at h ⊢
    · tauto
    · rcases h with h | h
      · tauto
      · rcases ih h with h | h <;> tauto

theorem pairwise_eraseCell (a : Nat) {l : List Host.Cell} (h : l.Pairwise (fun x y => x.1 < y.1)) :
    (eraseCell a l).Pairwise (fun x y => x.1 < y.1) := by
  induction l with
  | nil => simp [eraseCell]
  | cons d rest ih =>
    obtain ⟨j, w⟩ := d
    rw [List.pairwise_cons] at h
    by_cases hj : j = a
    · simpa [eraseCell, hj] using ih h.2
    · simp only [eraseCell, hj, ↓reduceIte, List.pairwise_cons]
      exact ⟨fun c hc => h.1 c (mem_eraseCell hc), ih h.2⟩

theorem pairwise_insertCell (a : Nat) (v : Byte) {l : List Host.Cell} (h : l.Pairwise (fun x y => x.1 < y.1))
    (hne : ∀ c ∈ l, c.1 ≠ a) : (insertCell a v l).Pairwise (fun x y => x.1 < y.1) := by
  induction l with
  | nil => simp [insertCell]
  | cons d rest ih =>
    obtain ⟨j, w⟩ := d
    have hj : j ≠ a := hne (j, w) (by simp)
    rw [List.pairwise_cons] at h
    simp only [insertCell]
    split
    · rename_i hlt
      rw [List.pairwise_cons, List.pairwise_cons]
      refine ⟨fun c hc => ?_, h⟩
      rcases List.mem_cons.1 hc with hc | hc
      · simp [hc, hlt]
      · exact Nat.lt_trans hlt (h.1 c hc)
    · rename_i hlt
      rw [List.pairwise_cons]
      refine ⟨fun c hc => ?_, ih h.2 fun c hc => hne c (List.mem_cons_of_mem _ hc)⟩
      rcases mem_insertCell hc with hc | hc
      · simp only [hc]; omega
      · exact h.1 c hc

theorem Memory.wfBelow_blank (n : Nat) : Memory.blank.wfBelow n := by simp [Memory.wfBelow, Memory.blank]

/-- A write inside the memory keeps the canonical form. -/
theorem Memory.wfBelow_write {n : Nat} {m : Memory} (h : m.wfBelow n) {a : Nat} (ha : a < n) (v : Byte) :
    (m.write a v).wfBelow n := by
  unfold Memory.write
  split
  · exact ⟨pairwise_eraseCell a h.1, fun c hc => h.2 c (mem_eraseCell hc)⟩
  · rename_i hv
    refine ⟨pairwise_insertCell a v (pairwise_eraseCell a h.1) (not_mem_eraseCell a m.cells), fun c hc => ?_⟩
    rcases mem_insertCell hc with hc | hc
    · subst hc; exact ⟨ha, hv⟩
    · exact h.2 c (mem_eraseCell hc)

theorem Memory.wfBelow_writeList {n : Nat} {m : Memory} (h : m.wfBelow n) {a : Nat} {l : List Byte}
    (ha : a + l.length ≤ n) : (m.writeList a l).wfBelow n := by
  induction l generalizing m a with
  | nil => exact h
  | cons v rest ih =>
    simp only [List.length_cons] at ha
    exact ih (Memory.wfBelow_write h (by omega) v) (by omega)

/-! ### Equal memories are equal data -/

theorem readCells_of_lt {a : Nat} {l : List Host.Cell} (h : ∀ c ∈ l, a < c.1) : readCells a l = Memory.fill := by
  induction l with
  | nil => rfl
  | cons d rest ih =>
    obtain ⟨j, w⟩ := d
    have hj : a < j := h (j, w) (by simp)
    simp only [readCells]
    rw [if_neg (by omega)]
    exact ih fun c hc => h c (List.mem_cons_of_mem _ hc)

theorem cells_eq_of_read {l l' : List Host.Cell}
    (h : l.Pairwise (fun x y => x.1 < y.1)) (h' : l'.Pairwise (fun x y => x.1 < y.1))
    (hf : ∀ c ∈ l, c.2 ≠ Memory.fill) (hf' : ∀ c ∈ l', c.2 ≠ Memory.fill)
    (hr : ∀ a, readCells a l = readCells a l') : l = l' := by
  induction l generalizing l' with
  | nil =>
    cases l' with
    | nil => rfl
    | cons d rest =>
      have := hr d.1
      simp only [readCells, ↓reduceIte] at this
      exact absurd this.symm (hf' d (by simp))
  | cons c rest ih =>
    cases l' with
    | nil =>
      have := hr c.1
      simp only [readCells, ↓reduceIte] at this
      exact absurd this (hf c (by simp))
    | cons d rest' =>
      obtain ⟨j, v⟩ := c
      obtain ⟨k, w⟩ := d
      rw [List.pairwise_cons] at h h'
      have hj : j = k := by
        rcases Nat.lt_trichotomy j k with hlt | heq | hgt
        · have := hr j
          rw [readCells, if_pos rfl, readCells_of_lt (l := (k, w) :: rest')] at this
          · exact absurd this (hf (j, v) (by simp))
          · intro c hc
            rcases List.mem_cons.1 hc with hc | hc
            · simp [hc, hlt]
            · exact Nat.lt_trans hlt (h'.1 c hc)
        · exact heq
        · have := hr k
          rw [readCells_of_lt (l := (j, v) :: rest), readCells, if_pos rfl] at this
          · exact absurd this.symm (hf' (k, w) (by simp))
          · intro c hc
            rcases List.mem_cons.1 hc with hc | hc
            · simp [hc, hgt]
            · exact Nat.lt_trans hgt (h.1 c hc)
      subst hj
      have hv : v = w := by simpa [readCells] using hr j
      subst hv
      congr 1
      refine ih h.2 h'.2 (fun c hc => hf c (List.mem_cons_of_mem _ hc))
        (fun c hc => hf' c (List.mem_cons_of_mem _ hc)) fun a => ?_
      by_cases ha : j = a
      · subst ha
        rw [readCells_of_lt fun c hc => h.1 c hc, readCells_of_lt fun c hc => h'.1 c hc]
      · simpa [readCells, ha] using hr a

/-- Two memories in canonical form that read alike are the same data. -/
theorem Memory.eq_of_read {n n' : Nat} {m m' : Memory} (h : m.wfBelow n) (h' : m'.wfBelow n')
    (hr : ∀ a, m.read a = m'.read a) : m = m' := by
  cases m; cases m'
  congr 1
  exact cells_eq_of_read h.1 h'.1 (fun c hc => (h.2 c hc).2) (fun c hc => (h'.2 c hc).2) hr

end Sys2Proof.Machine
end

