-- ==== Sys2Proof/Laws/State.lean ====
section
/-! SUPPORT. What each operation does to each field of the state, one lemma a field. -/

namespace Sys2Proof.Machine

variable (s : State)

/-! ### `State.retire` -/

@[simp] theorem State.retire_main (len m1 : Nat) : (s.retire len m1).main = s.main := rfl
@[simp] theorem State.retire_shadow (len m1 : Nat) : (s.retire len m1).shadow = s.shadow := rfl
@[simp] theorem State.retire_ix (len m1 : Nat) : (s.retire len m1).ix = s.ix := rfl
@[simp] theorem State.retire_iy (len m1 : Nat) : (s.retire len m1).iy = s.iy := rfl
@[simp] theorem State.retire_sp (len m1 : Nat) : (s.retire len m1).sp = s.sp := rfl
@[simp] theorem State.retire_pc (len m1 : Nat) : (s.retire len m1).pc = s.pc + BitVec.ofNat 16 len := rfl
@[simp] theorem State.retire_iReg (len m1 : Nat) : (s.retire len m1).iReg = s.iReg := rfl
@[simp] theorem State.retire_rReg (len m1 : Nat) : (s.retire len m1).rReg = stepR s.rReg m1 := rfl
@[simp] theorem State.retire_iff1 (len m1 : Nat) : (s.retire len m1).iff1 = s.iff1 := rfl
@[simp] theorem State.retire_iff2 (len m1 : Nat) : (s.retire len m1).iff2 = s.iff2 := rfl
@[simp] theorem State.retire_im (len m1 : Nat) : (s.retire len m1).im = s.im := rfl
@[simp] theorem State.retire_halted (len m1 : Nat) : (s.retire len m1).halted = s.halted := rfl
@[simp] theorem State.retire_bank (len m1 : Nat) : (s.retire len m1).bank = s.bank := rfl
@[simp] theorem State.retire_initMask (len m1 : Nat) : (s.retire len m1).initMask = s.initMask := rfl
@[simp] theorem State.retire_rom (len m1 : Nat) : (s.retire len m1).rom = s.rom := rfl
@[simp] theorem State.retire_ram (len m1 : Nat) : (s.retire len m1).ram = s.ram := rfl
@[simp] theorem State.retire_hstate (len m1 : Nat) : (s.retire len m1).hstate = s.hstate := rfl
@[simp] theorem State.retire_inq (len m1 : Nat) : (s.retire len m1).inq = s.inq := rfl
@[simp] theorem State.retire_outq (len m1 : Nat) : (s.retire len m1).outq = s.outq := rfl
@[simp] theorem State.retire_blockingAllowed (len m1 : Nat) :
    (s.retire len m1).blockingAllowed = s.blockingAllowed := rfl
@[simp] theorem State.retire_booting (len m1 : Nat) : (s.retire len m1).booting = s.booting := rfl
@[simp] theorem State.retire_report (len m1 : Nat) : (s.retire len m1).report = s.report := rfl
@[simp] theorem State.retire_icount (len m1 : Nat) : (s.retire len m1).icount = s.icount + 1 := rfl
@[simp] theorem State.retire_units (len m1 : Nat) : (s.retire len m1).units = s.units := rfl
@[simp] theorem State.retire_draws (len m1 : Nat) : (s.retire len m1).draws = s.draws := rfl

/-! ### `State.setReg` -/

@[simp] theorem State.setReg_main (r : Reg8) (v : Byte) : (s.setReg r v).main = s.main.set r v := rfl
@[simp] theorem State.setReg_shadow (r : Reg8) (v : Byte) : (s.setReg r v).shadow = s.shadow := rfl
@[simp] theorem State.setReg_ix (r : Reg8) (v : Byte) : (s.setReg r v).ix = s.ix := rfl
@[simp] theorem State.setReg_iy (r : Reg8) (v : Byte) : (s.setReg r v).iy = s.iy := rfl
@[simp] theorem State.setReg_sp (r : Reg8) (v : Byte) : (s.setReg r v).sp = s.sp := rfl
@[simp] theorem State.setReg_pc (r : Reg8) (v : Byte) : (s.setReg r v).pc = s.pc := rfl
@[simp] theorem State.setReg_iReg (r : Reg8) (v : Byte) : (s.setReg r v).iReg = s.iReg := rfl
@[simp] theorem State.setReg_rReg (r : Reg8) (v : Byte) : (s.setReg r v).rReg = s.rReg := rfl
@[simp] theorem State.setReg_iff1 (r : Reg8) (v : Byte) : (s.setReg r v).iff1 = s.iff1 := rfl
@[simp] theorem State.setReg_iff2 (r : Reg8) (v : Byte) : (s.setReg r v).iff2 = s.iff2 := rfl
@[simp] theorem State.setReg_im (r : Reg8) (v : Byte) : (s.setReg r v).im = s.im := rfl
@[simp] theorem State.setReg_halted (r : Reg8) (v : Byte) : (s.setReg r v).halted = s.halted := rfl
@[simp] theorem State.setReg_bank (r : Reg8) (v : Byte) : (s.setReg r v).bank = s.bank := rfl
@[simp] theorem State.setReg_initMask (r : Reg8) (v : Byte) : (s.setReg r v).initMask = s.initMask := rfl
@[simp] theorem State.setReg_rom (r : Reg8) (v : Byte) : (s.setReg r v).rom = s.rom := rfl
@[simp] theorem State.setReg_ram (r : Reg8) (v : Byte) : (s.setReg r v).ram = s.ram := rfl
@[simp] theorem State.setReg_hstate (r : Reg8) (v : Byte) : (s.setReg r v).hstate = s.hstate := rfl
@[simp] theorem State.setReg_inq (r : Reg8) (v : Byte) : (s.setReg r v).inq = s.inq := rfl
@[simp] theorem State.setReg_outq (r : Reg8) (v : Byte) : (s.setReg r v).outq = s.outq := rfl
@[simp] theorem State.setReg_blockingAllowed (r : Reg8) (v : Byte) :
    (s.setReg r v).blockingAllowed = s.blockingAllowed := rfl
@[simp] theorem State.setReg_booting (r : Reg8) (v : Byte) : (s.setReg r v).booting = s.booting := rfl
@[simp] theorem State.setReg_report (r : Reg8) (v : Byte) : (s.setReg r v).report = s.report := rfl
@[simp] theorem State.setReg_icount (r : Reg8) (v : Byte) : (s.setReg r v).icount = s.icount := rfl
@[simp] theorem State.setReg_units (r : Reg8) (v : Byte) : (s.setReg r v).units = s.units := rfl
@[simp] theorem State.setReg_draws (r : Reg8) (v : Byte) : (s.setReg r v).draws = s.draws := rfl

/-! ### `State.setBC` -/

@[simp] theorem State.setBC_main (v : Word) :
    (s.setBC v).main = { s.main with b := highByte v, c := lowByte v } := rfl
@[simp] theorem State.setBC_shadow (v : Word) : (s.setBC v).shadow = s.shadow := rfl
@[simp] theorem State.setBC_ix (v : Word) : (s.setBC v).ix = s.ix := rfl
@[simp] theorem State.setBC_iy (v : Word) : (s.setBC v).iy = s.iy := rfl
@[simp] theorem State.setBC_sp (v : Word) : (s.setBC v).sp = s.sp := rfl
@[simp] theorem State.setBC_pc (v : Word) : (s.setBC v).pc = s.pc := rfl
@[simp] theorem State.setBC_iReg (v : Word) : (s.setBC v).iReg = s.iReg := rfl
@[simp] theorem State.setBC_rReg (v : Word) : (s.setBC v).rReg = s.rReg := rfl
@[simp] theorem State.setBC_iff1 (v : Word) : (s.setBC v).iff1 = s.iff1 := rfl
@[simp] theorem State.setBC_iff2 (v : Word) : (s.setBC v).iff2 = s.iff2 := rfl
@[simp] theorem State.setBC_im (v : Word) : (s.setBC v).im = s.im := rfl
@[simp] theorem State.setBC_halted (v : Word) : (s.setBC v).halted = s.halted := rfl
@[simp] theorem State.setBC_bank (v : Word) : (s.setBC v).bank = s.bank := rfl
@[simp] theorem State.setBC_initMask (v : Word) : (s.setBC v).initMask = s.initMask := rfl
@[simp] theorem State.setBC_rom (v : Word) : (s.setBC v).rom = s.rom := rfl
@[simp] theorem State.setBC_ram (v : Word) : (s.setBC v).ram = s.ram := rfl
@[simp] theorem State.setBC_hstate (v : Word) : (s.setBC v).hstate = s.hstate := rfl
@[simp] theorem State.setBC_inq (v : Word) : (s.setBC v).inq = s.inq := rfl
@[simp] theorem State.setBC_outq (v : Word) : (s.setBC v).outq = s.outq := rfl
@[simp] theorem State.setBC_blockingAllowed (v : Word) : (s.setBC v).blockingAllowed = s.blockingAllowed := rfl
@[simp] theorem State.setBC_booting (v : Word) : (s.setBC v).booting = s.booting := rfl
@[simp] theorem State.setBC_report (v : Word) : (s.setBC v).report = s.report := rfl
@[simp] theorem State.setBC_icount (v : Word) : (s.setBC v).icount = s.icount := rfl
@[simp] theorem State.setBC_units (v : Word) : (s.setBC v).units = s.units := rfl
@[simp] theorem State.setBC_draws (v : Word) : (s.setBC v).draws = s.draws := rfl

/-! ### `State.setDE` -/

@[simp] theorem State.setDE_main (v : Word) :
    (s.setDE v).main = { s.main with d := highByte v, e := lowByte v } := rfl
@[simp] theorem State.setDE_shadow (v : Word) : (s.setDE v).shadow = s.shadow := rfl
@[simp] theorem State.setDE_ix (v : Word) : (s.setDE v).ix = s.ix := rfl
@[simp] theorem State.setDE_iy (v : Word) : (s.setDE v).iy = s.iy := rfl
@[simp] theorem State.setDE_sp (v : Word) : (s.setDE v).sp = s.sp := rfl
@[simp] theorem State.setDE_pc (v : Word) : (s.setDE v).pc = s.pc := rfl
@[simp] theorem State.setDE_iReg (v : Word) : (s.setDE v).iReg = s.iReg := rfl
@[simp] theorem State.setDE_rReg (v : Word) : (s.setDE v).rReg = s.rReg := rfl
@[simp] theorem State.setDE_iff1 (v : Word) : (s.setDE v).iff1 = s.iff1 := rfl
@[simp] theorem State.setDE_iff2 (v : Word) : (s.setDE v).iff2 = s.iff2 := rfl
@[simp] theorem State.setDE_im (v : Word) : (s.setDE v).im = s.im := rfl
@[simp] theorem State.setDE_halted (v : Word) : (s.setDE v).halted = s.halted := rfl
@[simp] theorem State.setDE_bank (v : Word) : (s.setDE v).bank = s.bank := rfl
@[simp] theorem State.setDE_initMask (v : Word) : (s.setDE v).initMask = s.initMask := rfl
@[simp] theorem State.setDE_rom (v : Word) : (s.setDE v).rom = s.rom := rfl
@[simp] theorem State.setDE_ram (v : Word) : (s.setDE v).ram = s.ram := rfl
@[simp] theorem State.setDE_hstate (v : Word) : (s.setDE v).hstate = s.hstate := rfl
@[simp] theorem State.setDE_inq (v : Word) : (s.setDE v).inq = s.inq := rfl
@[simp] theorem State.setDE_outq (v : Word) : (s.setDE v).outq = s.outq := rfl
@[simp] theorem State.setDE_blockingAllowed (v : Word) : (s.setDE v).blockingAllowed = s.blockingAllowed := rfl
@[simp] theorem State.setDE_booting (v : Word) : (s.setDE v).booting = s.booting := rfl
@[simp] theorem State.setDE_report (v : Word) : (s.setDE v).report = s.report := rfl
@[simp] theorem State.setDE_icount (v : Word) : (s.setDE v).icount = s.icount := rfl
@[simp] theorem State.setDE_units (v : Word) : (s.setDE v).units = s.units := rfl
@[simp] theorem State.setDE_draws (v : Word) : (s.setDE v).draws = s.draws := rfl

/-! ### `State.setHL` -/

@[simp] theorem State.setHL_main (v : Word) :
    (s.setHL v).main = { s.main with h := highByte v, l := lowByte v } := rfl
@[simp] theorem State.setHL_shadow (v : Word) : (s.setHL v).shadow = s.shadow := rfl
@[simp] theorem State.setHL_ix (v : Word) : (s.setHL v).ix = s.ix := rfl
@[simp] theorem State.setHL_iy (v : Word) : (s.setHL v).iy = s.iy := rfl
@[simp] theorem State.setHL_sp (v : Word) : (s.setHL v).sp = s.sp := rfl
@[simp] theorem State.setHL_pc (v : Word) : (s.setHL v).pc = s.pc := rfl
@[simp] theorem State.setHL_iReg (v : Word) : (s.setHL v).iReg = s.iReg := rfl
@[simp] theorem State.setHL_rReg (v : Word) : (s.setHL v).rReg = s.rReg := rfl
@[simp] theorem State.setHL_iff1 (v : Word) : (s.setHL v).iff1 = s.iff1 := rfl
@[simp] theorem State.setHL_iff2 (v : Word) : (s.setHL v).iff2 = s.iff2 := rfl
@[simp] theorem State.setHL_im (v : Word) : (s.setHL v).im = s.im := rfl
@[simp] theorem State.setHL_halted (v : Word) : (s.setHL v).halted = s.halted := rfl
@[simp] theorem State.setHL_bank (v : Word) : (s.setHL v).bank = s.bank := rfl
@[simp] theorem State.setHL_initMask (v : Word) : (s.setHL v).initMask = s.initMask := rfl
@[simp] theorem State.setHL_rom (v : Word) : (s.setHL v).rom = s.rom := rfl
@[simp] theorem State.setHL_ram (v : Word) : (s.setHL v).ram = s.ram := rfl
@[simp] theorem State.setHL_hstate (v : Word) : (s.setHL v).hstate = s.hstate := rfl
@[simp] theorem State.setHL_inq (v : Word) : (s.setHL v).inq = s.inq := rfl
@[simp] theorem State.setHL_outq (v : Word) : (s.setHL v).outq = s.outq := rfl
@[simp] theorem State.setHL_blockingAllowed (v : Word) : (s.setHL v).blockingAllowed = s.blockingAllowed := rfl
@[simp] theorem State.setHL_booting (v : Word) : (s.setHL v).booting = s.booting := rfl
@[simp] theorem State.setHL_report (v : Word) : (s.setHL v).report = s.report := rfl
@[simp] theorem State.setHL_icount (v : Word) : (s.setHL v).icount = s.icount := rfl
@[simp] theorem State.setHL_units (v : Word) : (s.setHL v).units = s.units := rfl
@[simp] theorem State.setHL_draws (v : Word) : (s.setHL v).draws = s.draws := rfl

/-! ### `State.setAF` -/

@[simp] theorem State.setAF_main (v : Word) :
    (s.setAF v).main = { s.main with a := highByte v, f := Flags.ofByte (lowByte v) } := rfl
@[simp] theorem State.setAF_shadow (v : Word) : (s.setAF v).shadow = s.shadow := rfl
@[simp] theorem State.setAF_ix (v : Word) : (s.setAF v).ix = s.ix := rfl
@[simp] theorem State.setAF_iy (v : Word) : (s.setAF v).iy = s.iy := rfl
@[simp] theorem State.setAF_sp (v : Word) : (s.setAF v).sp = s.sp := rfl
@[simp] theorem State.setAF_pc (v : Word) : (s.setAF v).pc = s.pc := rfl
@[simp] theorem State.setAF_iReg (v : Word) : (s.setAF v).iReg = s.iReg := rfl
@[simp] theorem State.setAF_rReg (v : Word) : (s.setAF v).rReg = s.rReg := rfl
@[simp] theorem State.setAF_iff1 (v : Word) : (s.setAF v).iff1 = s.iff1 := rfl
@[simp] theorem State.setAF_iff2 (v : Word) : (s.setAF v).iff2 = s.iff2 := rfl
@[simp] theorem State.setAF_im (v : Word) : (s.setAF v).im = s.im := rfl
@[simp] theorem State.setAF_halted (v : Word) : (s.setAF v).halted = s.halted := rfl
@[simp] theorem State.setAF_bank (v : Word) : (s.setAF v).bank = s.bank := rfl
@[simp] theorem State.setAF_initMask (v : Word) : (s.setAF v).initMask = s.initMask := rfl
@[simp] theorem State.setAF_rom (v : Word) : (s.setAF v).rom = s.rom := rfl
@[simp] theorem State.setAF_ram (v : Word) : (s.setAF v).ram = s.ram := rfl
@[simp] theorem State.setAF_hstate (v : Word) : (s.setAF v).hstate = s.hstate := rfl
@[simp] theorem State.setAF_inq (v : Word) : (s.setAF v).inq = s.inq := rfl
@[simp] theorem State.setAF_outq (v : Word) : (s.setAF v).outq = s.outq := rfl
@[simp] theorem State.setAF_blockingAllowed (v : Word) : (s.setAF v).blockingAllowed = s.blockingAllowed := rfl
@[simp] theorem State.setAF_booting (v : Word) : (s.setAF v).booting = s.booting := rfl
@[simp] theorem State.setAF_report (v : Word) : (s.setAF v).report = s.report := rfl
@[simp] theorem State.setAF_icount (v : Word) : (s.setAF v).icount = s.icount := rfl
@[simp] theorem State.setAF_units (v : Word) : (s.setAF v).units = s.units := rfl
@[simp] theorem State.setAF_draws (v : Word) : (s.setAF v).draws = s.draws := rfl

/-! ### `State.setA` -/

@[simp] theorem State.setA_main (v : Byte) : (s.setA v).main = { s.main with a := v } := rfl
@[simp] theorem State.setA_shadow (v : Byte) : (s.setA v).shadow = s.shadow := rfl
@[simp] theorem State.setA_ix (v : Byte) : (s.setA v).ix = s.ix := rfl
@[simp] theorem State.setA_iy (v : Byte) : (s.setA v).iy = s.iy := rfl
@[simp] theorem State.setA_sp (v : Byte) : (s.setA v).sp = s.sp := rfl
@[simp] theorem State.setA_pc (v : Byte) : (s.setA v).pc = s.pc := rfl
@[simp] theorem State.setA_iReg (v : Byte) : (s.setA v).iReg = s.iReg := rfl
@[simp] theorem State.setA_rReg (v : Byte) : (s.setA v).rReg = s.rReg := rfl
@[simp] theorem State.setA_iff1 (v : Byte) : (s.setA v).iff1 = s.iff1 := rfl
@[simp] theorem State.setA_iff2 (v : Byte) : (s.setA v).iff2 = s.iff2 := rfl
@[simp] theorem State.setA_im (v : Byte) : (s.setA v).im = s.im := rfl
@[simp] theorem State.setA_halted (v : Byte) : (s.setA v).halted = s.halted := rfl
@[simp] theorem State.setA_bank (v : Byte) : (s.setA v).bank = s.bank := rfl
@[simp] theorem State.setA_initMask (v : Byte) : (s.setA v).initMask = s.initMask := rfl
@[simp] theorem State.setA_rom (v : Byte) : (s.setA v).rom = s.rom := rfl
@[simp] theorem State.setA_ram (v : Byte) : (s.setA v).ram = s.ram := rfl
@[simp] theorem State.setA_hstate (v : Byte) : (s.setA v).hstate = s.hstate := rfl
@[simp] theorem State.setA_inq (v : Byte) : (s.setA v).inq = s.inq := rfl
@[simp] theorem State.setA_outq (v : Byte) : (s.setA v).outq = s.outq := rfl
@[simp] theorem State.setA_blockingAllowed (v : Byte) : (s.setA v).blockingAllowed = s.blockingAllowed := rfl
@[simp] theorem State.setA_booting (v : Byte) : (s.setA v).booting = s.booting := rfl
@[simp] theorem State.setA_report (v : Byte) : (s.setA v).report = s.report := rfl
@[simp] theorem State.setA_icount (v : Byte) : (s.setA v).icount = s.icount := rfl
@[simp] theorem State.setA_units (v : Byte) : (s.setA v).units = s.units := rfl
@[simp] theorem State.setA_draws (v : Byte) : (s.setA v).draws = s.draws := rfl

/-! ### `State.setFlags` -/

@[simp] theorem State.setFlags_main (f : DocFlags) :
    (s.setFlags f).main = { s.main with f := { toDocFlags := f, y := s.drawn.y, x := s.drawn.x } } := rfl
@[simp] theorem State.setFlags_shadow (f : DocFlags) : (s.setFlags f).shadow = s.shadow := rfl
@[simp] theorem State.setFlags_ix (f : DocFlags) : (s.setFlags f).ix = s.ix := rfl
@[simp] theorem State.setFlags_iy (f : DocFlags) : (s.setFlags f).iy = s.iy := rfl
@[simp] theorem State.setFlags_sp (f : DocFlags) : (s.setFlags f).sp = s.sp := rfl
@[simp] theorem State.setFlags_pc (f : DocFlags) : (s.setFlags f).pc = s.pc := rfl
@[simp] theorem State.setFlags_iReg (f : DocFlags) : (s.setFlags f).iReg = s.iReg := rfl
@[simp] theorem State.setFlags_rReg (f : DocFlags) : (s.setFlags f).rReg = s.rReg := rfl
@[simp] theorem State.setFlags_iff1 (f : DocFlags) : (s.setFlags f).iff1 = s.iff1 := rfl
@[simp] theorem State.setFlags_iff2 (f : DocFlags) : (s.setFlags f).iff2 = s.iff2 := rfl
@[simp] theorem State.setFlags_im (f : DocFlags) : (s.setFlags f).im = s.im := rfl
@[simp] theorem State.setFlags_halted (f : DocFlags) : (s.setFlags f).halted = s.halted := rfl
@[simp] theorem State.setFlags_bank (f : DocFlags) : (s.setFlags f).bank = s.bank := rfl
@[simp] theorem State.setFlags_initMask (f : DocFlags) : (s.setFlags f).initMask = s.initMask := rfl
@[simp] theorem State.setFlags_rom (f : DocFlags) : (s.setFlags f).rom = s.rom := rfl
@[simp] theorem State.setFlags_ram (f : DocFlags) : (s.setFlags f).ram = s.ram := rfl
@[simp] theorem State.setFlags_hstate (f : DocFlags) : (s.setFlags f).hstate = s.hstate := rfl
@[simp] theorem State.setFlags_inq (f : DocFlags) : (s.setFlags f).inq = s.inq := rfl
@[simp] theorem State.setFlags_outq (f : DocFlags) : (s.setFlags f).outq = s.outq := rfl
@[simp] theorem State.setFlags_blockingAllowed (f : DocFlags) :
    (s.setFlags f).blockingAllowed = s.blockingAllowed := rfl
@[simp] theorem State.setFlags_booting (f : DocFlags) : (s.setFlags f).booting = s.booting := rfl
@[simp] theorem State.setFlags_report (f : DocFlags) : (s.setFlags f).report = s.report := rfl
@[simp] theorem State.setFlags_icount (f : DocFlags) : (s.setFlags f).icount = s.icount := rfl
@[simp] theorem State.setFlags_units (f : DocFlags) : (s.setFlags f).units = s.units := rfl
@[simp] theorem State.setFlags_draws (f : DocFlags) : (s.setFlags f).draws = s.draws + 1 := rfl

/-! ### `State.writeBank` -/

@[simp] theorem State.writeBank_main (b : Byte) (a : Word) (v : Byte) : (s.writeBank b a v).main = s.main := rfl
@[simp] theorem State.writeBank_shadow (b : Byte) (a : Word) (v : Byte) : (s.writeBank b a v).shadow = s.shadow := rfl
@[simp] theorem State.writeBank_ix (b : Byte) (a : Word) (v : Byte) : (s.writeBank b a v).ix = s.ix := rfl
@[simp] theorem State.writeBank_iy (b : Byte) (a : Word) (v : Byte) : (s.writeBank b a v).iy = s.iy := rfl
@[simp] theorem State.writeBank_sp (b : Byte) (a : Word) (v : Byte) : (s.writeBank b a v).sp = s.sp := rfl
@[simp] theorem State.writeBank_pc (b : Byte) (a : Word) (v : Byte) : (s.writeBank b a v).pc = s.pc := rfl
@[simp] theorem State.writeBank_iReg (b : Byte) (a : Word) (v : Byte) : (s.writeBank b a v).iReg = s.iReg := rfl
@[simp] theorem State.writeBank_rReg (b : Byte) (a : Word) (v : Byte) : (s.writeBank b a v).rReg = s.rReg := rfl
@[simp] theorem State.writeBank_iff1 (b : Byte) (a : Word) (v : Byte) : (s.writeBank b a v).iff1 = s.iff1 := rfl
@[simp] theorem State.writeBank_iff2 (b : Byte) (a : Word) (v : Byte) : (s.writeBank b a v).iff2 = s.iff2 := rfl
@[simp] theorem State.writeBank_im (b : Byte) (a : Word) (v : Byte) : (s.writeBank b a v).im = s.im := rfl
@[simp] theorem State.writeBank_halted (b : Byte) (a : Word) (v : Byte) : (s.writeBank b a v).halted = s.halted := rfl
@[simp] theorem State.writeBank_bank (b : Byte) (a : Word) (v : Byte) : (s.writeBank b a v).bank = s.bank := rfl
@[simp] theorem State.writeBank_initMask (b : Byte) (a : Word) (v : Byte) :
    (s.writeBank b a v).initMask = s.initMask := rfl
@[simp] theorem State.writeBank_rom (b : Byte) (a : Word) (v : Byte) : (s.writeBank b a v).rom = s.rom := rfl
@[simp] theorem State.writeBank_ram (b : Byte) (a : Word) (v : Byte) :
    (s.writeBank b a v).ram = storeAt (resolve b a) v s.ram := rfl
@[simp] theorem State.writeBank_hstate (b : Byte) (a : Word) (v : Byte) : (s.writeBank b a v).hstate = s.hstate := rfl
@[simp] theorem State.writeBank_inq (b : Byte) (a : Word) (v : Byte) : (s.writeBank b a v).inq = s.inq := rfl
@[simp] theorem State.writeBank_outq (b : Byte) (a : Word) (v : Byte) : (s.writeBank b a v).outq = s.outq := rfl
@[simp] theorem State.writeBank_blockingAllowed (b : Byte) (a : Word) (v : Byte) :
    (s.writeBank b a v).blockingAllowed = s.blockingAllowed := rfl
@[simp] theorem State.writeBank_booting (b : Byte) (a : Word) (v : Byte) :
    (s.writeBank b a v).booting = s.booting := rfl
@[simp] theorem State.writeBank_report (b : Byte) (a : Word) (v : Byte) : (s.writeBank b a v).report = s.report := rfl
@[simp] theorem State.writeBank_icount (b : Byte) (a : Word) (v : Byte) : (s.writeBank b a v).icount = s.icount := rfl
@[simp] theorem State.writeBank_units (b : Byte) (a : Word) (v : Byte) : (s.writeBank b a v).units = s.units := rfl
@[simp] theorem State.writeBank_draws (b : Byte) (a : Word) (v : Byte) : (s.writeBank b a v).draws = s.draws := rfl

/-! ### `State.store` -/

@[simp] theorem State.store_main (a : Word) (v : Byte) : (s.store a v).main = s.main := rfl
@[simp] theorem State.store_shadow (a : Word) (v : Byte) : (s.store a v).shadow = s.shadow := rfl
@[simp] theorem State.store_ix (a : Word) (v : Byte) : (s.store a v).ix = s.ix := rfl
@[simp] theorem State.store_iy (a : Word) (v : Byte) : (s.store a v).iy = s.iy := rfl
@[simp] theorem State.store_sp (a : Word) (v : Byte) : (s.store a v).sp = s.sp := rfl
@[simp] theorem State.store_pc (a : Word) (v : Byte) : (s.store a v).pc = s.pc := rfl
@[simp] theorem State.store_iReg (a : Word) (v : Byte) : (s.store a v).iReg = s.iReg := rfl
@[simp] theorem State.store_rReg (a : Word) (v : Byte) : (s.store a v).rReg = s.rReg := rfl
@[simp] theorem State.store_iff1 (a : Word) (v : Byte) : (s.store a v).iff1 = s.iff1 := rfl
@[simp] theorem State.store_iff2 (a : Word) (v : Byte) : (s.store a v).iff2 = s.iff2 := rfl
@[simp] theorem State.store_im (a : Word) (v : Byte) : (s.store a v).im = s.im := rfl
@[simp] theorem State.store_halted (a : Word) (v : Byte) : (s.store a v).halted = s.halted := rfl
@[simp] theorem State.store_bank (a : Word) (v : Byte) : (s.store a v).bank = s.bank := rfl
@[simp] theorem State.store_initMask (a : Word) (v : Byte) : (s.store a v).initMask = s.initMask := rfl
@[simp] theorem State.store_rom (a : Word) (v : Byte) : (s.store a v).rom = s.rom := rfl
@[simp] theorem State.store_ram (a : Word) (v : Byte) : (s.store a v).ram = storeAt (resolve s.bank a) v s.ram := rfl
@[simp] theorem State.store_hstate (a : Word) (v : Byte) : (s.store a v).hstate = s.hstate := rfl
@[simp] theorem State.store_inq (a : Word) (v : Byte) : (s.store a v).inq = s.inq := rfl
@[simp] theorem State.store_outq (a : Word) (v : Byte) : (s.store a v).outq = s.outq := rfl
@[simp] theorem State.store_blockingAllowed (a : Word) (v : Byte) :
    (s.store a v).blockingAllowed = s.blockingAllowed := rfl
@[simp] theorem State.store_booting (a : Word) (v : Byte) : (s.store a v).booting = s.booting := rfl
@[simp] theorem State.store_report (a : Word) (v : Byte) : (s.store a v).report = s.report := rfl
@[simp] theorem State.store_icount (a : Word) (v : Byte) : (s.store a v).icount = s.icount := rfl
@[simp] theorem State.store_units (a : Word) (v : Byte) : (s.store a v).units = s.units := rfl
@[simp] theorem State.store_draws (a : Word) (v : Byte) : (s.store a v).draws = s.draws := rfl

/-! ### `State.store16` -/

@[simp] theorem State.store16_main (a v : Word) : (s.store16 a v).main = s.main := rfl
@[simp] theorem State.store16_shadow (a v : Word) : (s.store16 a v).shadow = s.shadow := rfl
@[simp] theorem State.store16_ix (a v : Word) : (s.store16 a v).ix = s.ix := rfl
@[simp] theorem State.store16_iy (a v : Word) : (s.store16 a v).iy = s.iy := rfl
@[simp] theorem State.store16_sp (a v : Word) : (s.store16 a v).sp = s.sp := rfl
@[simp] theorem State.store16_pc (a v : Word) : (s.store16 a v).pc = s.pc := rfl
@[simp] theorem State.store16_iReg (a v : Word) : (s.store16 a v).iReg = s.iReg := rfl
@[simp] theorem State.store16_rReg (a v : Word) : (s.store16 a v).rReg = s.rReg := rfl
@[simp] theorem State.store16_iff1 (a v : Word) : (s.store16 a v).iff1 = s.iff1 := rfl
@[simp] theorem State.store16_iff2 (a v : Word) : (s.store16 a v).iff2 = s.iff2 := rfl
@[simp] theorem State.store16_im (a v : Word) : (s.store16 a v).im = s.im := rfl
@[simp] theorem State.store16_halted (a v : Word) : (s.store16 a v).halted = s.halted := rfl
@[simp] theorem State.store16_bank (a v : Word) : (s.store16 a v).bank = s.bank := rfl
@[simp] theorem State.store16_initMask (a v : Word) : (s.store16 a v).initMask = s.initMask := rfl
@[simp] theorem State.store16_rom (a v : Word) : (s.store16 a v).rom = s.rom := rfl
@[simp] theorem State.store16_ram (a v : Word) :
    (s.store16 a v).ram = storeAt (resolve s.bank (a + 1)) (highByte v) (storeAt (resolve s.bank a) (lowByte v) s.ram) := rfl
@[simp] theorem State.store16_hstate (a v : Word) : (s.store16 a v).hstate = s.hstate := rfl
@[simp] theorem State.store16_inq (a v : Word) : (s.store16 a v).inq = s.inq := rfl
@[simp] theorem State.store16_outq (a v : Word) : (s.store16 a v).outq = s.outq := rfl
@[simp] theorem State.store16_blockingAllowed (a v : Word) :
    (s.store16 a v).blockingAllowed = s.blockingAllowed := rfl
@[simp] theorem State.store16_booting (a v : Word) : (s.store16 a v).booting = s.booting := rfl
@[simp] theorem State.store16_report (a v : Word) : (s.store16 a v).report = s.report := rfl
@[simp] theorem State.store16_icount (a v : Word) : (s.store16 a v).icount = s.icount := rfl
@[simp] theorem State.store16_units (a v : Word) : (s.store16 a v).units = s.units := rfl
@[simp] theorem State.store16_draws (a v : Word) : (s.store16 a v).draws = s.draws := rfl

/-! ### `State.push16` -/

@[simp] theorem State.push16_main (v : Word) : (s.push16 v).main = s.main := rfl
@[simp] theorem State.push16_shadow (v : Word) : (s.push16 v).shadow = s.shadow := rfl
@[simp] theorem State.push16_ix (v : Word) : (s.push16 v).ix = s.ix := rfl
@[simp] theorem State.push16_iy (v : Word) : (s.push16 v).iy = s.iy := rfl
@[simp] theorem State.push16_sp (v : Word) : (s.push16 v).sp = s.sp - 2 := rfl
@[simp] theorem State.push16_pc (v : Word) : (s.push16 v).pc = s.pc := rfl
@[simp] theorem State.push16_iReg (v : Word) : (s.push16 v).iReg = s.iReg := rfl
@[simp] theorem State.push16_rReg (v : Word) : (s.push16 v).rReg = s.rReg := rfl
@[simp] theorem State.push16_iff1 (v : Word) : (s.push16 v).iff1 = s.iff1 := rfl
@[simp] theorem State.push16_iff2 (v : Word) : (s.push16 v).iff2 = s.iff2 := rfl
@[simp] theorem State.push16_im (v : Word) : (s.push16 v).im = s.im := rfl
@[simp] theorem State.push16_halted (v : Word) : (s.push16 v).halted = s.halted := rfl
@[simp] theorem State.push16_bank (v : Word) : (s.push16 v).bank = s.bank := rfl
@[simp] theorem State.push16_initMask (v : Word) : (s.push16 v).initMask = s.initMask := rfl
@[simp] theorem State.push16_rom (v : Word) : (s.push16 v).rom = s.rom := rfl
@[simp] theorem State.push16_ram (v : Word) :
    (s.push16 v).ram = storeAt (resolve s.bank (s.sp - 2)) (lowByte v) (storeAt (resolve s.bank (s.sp - 1)) (highByte v) s.ram) := rfl
@[simp] theorem State.push16_hstate (v : Word) : (s.push16 v).hstate = s.hstate := rfl
@[simp] theorem State.push16_inq (v : Word) : (s.push16 v).inq = s.inq := rfl
@[simp] theorem State.push16_outq (v : Word) : (s.push16 v).outq = s.outq := rfl
@[simp] theorem State.push16_blockingAllowed (v : Word) : (s.push16 v).blockingAllowed = s.blockingAllowed := rfl
@[simp] theorem State.push16_booting (v : Word) : (s.push16 v).booting = s.booting := rfl
@[simp] theorem State.push16_report (v : Word) : (s.push16 v).report = s.report := rfl
@[simp] theorem State.push16_icount (v : Word) : (s.push16 v).icount = s.icount := rfl
@[simp] theorem State.push16_units (v : Word) : (s.push16 v).units = s.units := rfl
@[simp] theorem State.push16_draws (v : Word) : (s.push16 v).draws = s.draws := rfl

/-! ### `State.dropTop` -/

@[simp] theorem State.dropTop_main : (s.dropTop).main = s.main := rfl
@[simp] theorem State.dropTop_shadow : (s.dropTop).shadow = s.shadow := rfl
@[simp] theorem State.dropTop_ix : (s.dropTop).ix = s.ix := rfl
@[simp] theorem State.dropTop_iy : (s.dropTop).iy = s.iy := rfl
@[simp] theorem State.dropTop_sp : (s.dropTop).sp = s.sp + 2 := rfl
@[simp] theorem State.dropTop_pc : (s.dropTop).pc = s.pc := rfl
@[simp] theorem State.dropTop_iReg : (s.dropTop).iReg = s.iReg := rfl
@[simp] theorem State.dropTop_rReg : (s.dropTop).rReg = s.rReg := rfl
@[simp] theorem State.dropTop_iff1 : (s.dropTop).iff1 = s.iff1 := rfl
@[simp] theorem State.dropTop_iff2 : (s.dropTop).iff2 = s.iff2 := rfl
@[simp] theorem State.dropTop_im : (s.dropTop).im = s.im := rfl
@[simp] theorem State.dropTop_halted : (s.dropTop).halted = s.halted := rfl
@[simp] theorem State.dropTop_bank : (s.dropTop).bank = s.bank := rfl
@[simp] theorem State.dropTop_initMask : (s.dropTop).initMask = s.initMask := rfl
@[simp] theorem State.dropTop_rom : (s.dropTop).rom = s.rom := rfl
@[simp] theorem State.dropTop_ram : (s.dropTop).ram = s.ram := rfl
@[simp] theorem State.dropTop_hstate : (s.dropTop).hstate = s.hstate := rfl
@[simp] theorem State.dropTop_inq : (s.dropTop).inq = s.inq := rfl
@[simp] theorem State.dropTop_outq : (s.dropTop).outq = s.outq := rfl
@[simp] theorem State.dropTop_blockingAllowed : (s.dropTop).blockingAllowed = s.blockingAllowed := rfl
@[simp] theorem State.dropTop_booting : (s.dropTop).booting = s.booting := rfl
@[simp] theorem State.dropTop_report : (s.dropTop).report = s.report := rfl
@[simp] theorem State.dropTop_icount : (s.dropTop).icount = s.icount := rfl
@[simp] theorem State.dropTop_units : (s.dropTop).units = s.units := rfl
@[simp] theorem State.dropTop_draws : (s.dropTop).draws = s.draws := rfl

/-! ### `State.setUnit` -/

@[simp] theorem State.setUnit_main (i : Fin 16) (u : DiskUnit) : (s.setUnit i u).main = s.main := rfl
@[simp] theorem State.setUnit_shadow (i : Fin 16) (u : DiskUnit) : (s.setUnit i u).shadow = s.shadow := rfl
@[simp] theorem State.setUnit_ix (i : Fin 16) (u : DiskUnit) : (s.setUnit i u).ix = s.ix := rfl
@[simp] theorem State.setUnit_iy (i : Fin 16) (u : DiskUnit) : (s.setUnit i u).iy = s.iy := rfl
@[simp] theorem State.setUnit_sp (i : Fin 16) (u : DiskUnit) : (s.setUnit i u).sp = s.sp := rfl
@[simp] theorem State.setUnit_pc (i : Fin 16) (u : DiskUnit) : (s.setUnit i u).pc = s.pc := rfl
@[simp] theorem State.setUnit_iReg (i : Fin 16) (u : DiskUnit) : (s.setUnit i u).iReg = s.iReg := rfl
@[simp] theorem State.setUnit_rReg (i : Fin 16) (u : DiskUnit) : (s.setUnit i u).rReg = s.rReg := rfl
@[simp] theorem State.setUnit_iff1 (i : Fin 16) (u : DiskUnit) : (s.setUnit i u).iff1 = s.iff1 := rfl
@[simp] theorem State.setUnit_iff2 (i : Fin 16) (u : DiskUnit) : (s.setUnit i u).iff2 = s.iff2 := rfl
@[simp] theorem State.setUnit_im (i : Fin 16) (u : DiskUnit) : (s.setUnit i u).im = s.im := rfl
@[simp] theorem State.setUnit_halted (i : Fin 16) (u : DiskUnit) : (s.setUnit i u).halted = s.halted := rfl
@[simp] theorem State.setUnit_bank (i : Fin 16) (u : DiskUnit) : (s.setUnit i u).bank = s.bank := rfl
@[simp] theorem State.setUnit_initMask (i : Fin 16) (u : DiskUnit) : (s.setUnit i u).initMask = s.initMask := rfl
@[simp] theorem State.setUnit_rom (i : Fin 16) (u : DiskUnit) : (s.setUnit i u).rom = s.rom := rfl
@[simp] theorem State.setUnit_ram (i : Fin 16) (u : DiskUnit) : (s.setUnit i u).ram = s.ram := rfl
@[simp] theorem State.setUnit_hstate (i : Fin 16) (u : DiskUnit) : (s.setUnit i u).hstate = s.hstate := rfl
@[simp] theorem State.setUnit_inq (i : Fin 16) (u : DiskUnit) : (s.setUnit i u).inq = s.inq := rfl
@[simp] theorem State.setUnit_outq (i : Fin 16) (u : DiskUnit) : (s.setUnit i u).outq = s.outq := rfl
@[simp] theorem State.setUnit_blockingAllowed (i : Fin 16) (u : DiskUnit) :
    (s.setUnit i u).blockingAllowed = s.blockingAllowed := rfl
@[simp] theorem State.setUnit_booting (i : Fin 16) (u : DiskUnit) : (s.setUnit i u).booting = s.booting := rfl
@[simp] theorem State.setUnit_report (i : Fin 16) (u : DiskUnit) : (s.setUnit i u).report = s.report := rfl
@[simp] theorem State.setUnit_icount (i : Fin 16) (u : DiskUnit) : (s.setUnit i u).icount = s.icount := rfl
@[simp] theorem State.setUnit_units (i : Fin 16) (u : DiskUnit) : (s.setUnit i u).units = s.units.set i.val u := rfl
@[simp] theorem State.setUnit_draws (i : Fin 16) (u : DiskUnit) : (s.setUnit i u).draws = s.draws := rfl

/-! ### `State.copyHead` -/

@[simp] theorem State.copyHead_main (off : Nat) : (s.copyHead off).main = s.main := rfl
@[simp] theorem State.copyHead_shadow (off : Nat) : (s.copyHead off).shadow = s.shadow := rfl
@[simp] theorem State.copyHead_ix (off : Nat) : (s.copyHead off).ix = s.ix := rfl
@[simp] theorem State.copyHead_iy (off : Nat) : (s.copyHead off).iy = s.iy := rfl
@[simp] theorem State.copyHead_sp (off : Nat) : (s.copyHead off).sp = s.sp := rfl
@[simp] theorem State.copyHead_pc (off : Nat) : (s.copyHead off).pc = s.pc := rfl
@[simp] theorem State.copyHead_iReg (off : Nat) : (s.copyHead off).iReg = s.iReg := rfl
@[simp] theorem State.copyHead_rReg (off : Nat) : (s.copyHead off).rReg = s.rReg := rfl
@[simp] theorem State.copyHead_iff1 (off : Nat) : (s.copyHead off).iff1 = s.iff1 := rfl
@[simp] theorem State.copyHead_iff2 (off : Nat) : (s.copyHead off).iff2 = s.iff2 := rfl
@[simp] theorem State.copyHead_im (off : Nat) : (s.copyHead off).im = s.im := rfl
@[simp] theorem State.copyHead_halted (off : Nat) : (s.copyHead off).halted = s.halted := rfl
@[simp] theorem State.copyHead_bank (off : Nat) : (s.copyHead off).bank = s.bank := rfl
@[simp] theorem State.copyHead_initMask (off : Nat) : (s.copyHead off).initMask = s.initMask := rfl
@[simp] theorem State.copyHead_rom (off : Nat) : (s.copyHead off).rom = s.rom := rfl
@[simp] theorem State.copyHead_ram (off : Nat) : (s.copyHead off).ram = headCopied s.rom s.ram off := rfl
@[simp] theorem State.copyHead_hstate (off : Nat) : (s.copyHead off).hstate = s.hstate := rfl
@[simp] theorem State.copyHead_inq (off : Nat) : (s.copyHead off).inq = s.inq := rfl
@[simp] theorem State.copyHead_outq (off : Nat) : (s.copyHead off).outq = s.outq := rfl
@[simp] theorem State.copyHead_blockingAllowed (off : Nat) :
    (s.copyHead off).blockingAllowed = s.blockingAllowed := rfl
@[simp] theorem State.copyHead_booting (off : Nat) : (s.copyHead off).booting = s.booting := rfl
@[simp] theorem State.copyHead_report (off : Nat) : (s.copyHead off).report = s.report := rfl
@[simp] theorem State.copyHead_icount (off : Nat) : (s.copyHead off).icount = s.icount := rfl
@[simp] theorem State.copyHead_units (off : Nat) : (s.copyHead off).units = s.units := rfl
@[simp] theorem State.copyHead_draws (off : Nat) : (s.copyHead off).draws = s.draws := rfl

/-! ### `State.clearRam` -/

@[simp] theorem State.clearRam_main : (s.clearRam).main = s.main := rfl
@[simp] theorem State.clearRam_shadow : (s.clearRam).shadow = s.shadow := rfl
@[simp] theorem State.clearRam_ix : (s.clearRam).ix = s.ix := rfl
@[simp] theorem State.clearRam_iy : (s.clearRam).iy = s.iy := rfl
@[simp] theorem State.clearRam_sp : (s.clearRam).sp = s.sp := rfl
@[simp] theorem State.clearRam_pc : (s.clearRam).pc = s.pc := rfl
@[simp] theorem State.clearRam_iReg : (s.clearRam).iReg = s.iReg := rfl
@[simp] theorem State.clearRam_rReg : (s.clearRam).rReg = s.rReg := rfl
@[simp] theorem State.clearRam_iff1 : (s.clearRam).iff1 = s.iff1 := rfl
@[simp] theorem State.clearRam_iff2 : (s.clearRam).iff2 = s.iff2 := rfl
@[simp] theorem State.clearRam_im : (s.clearRam).im = s.im := rfl
@[simp] theorem State.clearRam_halted : (s.clearRam).halted = s.halted := rfl
@[simp] theorem State.clearRam_bank : (s.clearRam).bank = s.bank := rfl
@[simp] theorem State.clearRam_initMask : (s.clearRam).initMask = 0 := rfl
@[simp] theorem State.clearRam_rom : (s.clearRam).rom = s.rom := rfl
@[simp] theorem State.clearRam_ram : (s.clearRam).ram = Memory.blank := rfl
@[simp] theorem State.clearRam_hstate : (s.clearRam).hstate = s.hstate := rfl
@[simp] theorem State.clearRam_inq : (s.clearRam).inq = s.inq := rfl
@[simp] theorem State.clearRam_outq : (s.clearRam).outq = s.outq := rfl
@[simp] theorem State.clearRam_blockingAllowed : (s.clearRam).blockingAllowed = s.blockingAllowed := rfl
@[simp] theorem State.clearRam_booting : (s.clearRam).booting = s.booting := rfl
@[simp] theorem State.clearRam_report : (s.clearRam).report = s.report := rfl
@[simp] theorem State.clearRam_icount : (s.clearRam).icount = s.icount := rfl
@[simp] theorem State.clearRam_units : (s.clearRam).units = s.units := rfl
@[simp] theorem State.clearRam_draws : (s.clearRam).draws = s.draws := rfl

/-! ### `State.selectBank` -/

@[simp] theorem State.selectBank_main (b : Byte) : (s.selectBank b).main = s.main := rfl
@[simp] theorem State.selectBank_shadow (b : Byte) : (s.selectBank b).shadow = s.shadow := rfl
@[simp] theorem State.selectBank_ix (b : Byte) : (s.selectBank b).ix = s.ix := rfl
@[simp] theorem State.selectBank_iy (b : Byte) : (s.selectBank b).iy = s.iy := rfl
@[simp] theorem State.selectBank_sp (b : Byte) : (s.selectBank b).sp = s.sp := rfl
@[simp] theorem State.selectBank_pc (b : Byte) : (s.selectBank b).pc = s.pc := rfl
@[simp] theorem State.selectBank_iReg (b : Byte) : (s.selectBank b).iReg = s.iReg := rfl
@[simp] theorem State.selectBank_rReg (b : Byte) : (s.selectBank b).rReg = s.rReg := rfl
@[simp] theorem State.selectBank_iff1 (b : Byte) : (s.selectBank b).iff1 = s.iff1 := rfl
@[simp] theorem State.selectBank_iff2 (b : Byte) : (s.selectBank b).iff2 = s.iff2 := rfl
@[simp] theorem State.selectBank_im (b : Byte) : (s.selectBank b).im = s.im := rfl
@[simp] theorem State.selectBank_halted (b : Byte) : (s.selectBank b).halted = s.halted := rfl
@[simp] theorem State.selectBank_bank (b : Byte) : (s.selectBank b).bank = b := rfl
@[simp] theorem State.selectBank_initMask (b : Byte) :
    (s.selectBank b).initMask = if s.firstSelect b then s.initMask ||| initBit b else s.initMask := rfl
@[simp] theorem State.selectBank_rom (b : Byte) : (s.selectBank b).rom = s.rom := rfl
@[simp] theorem State.selectBank_ram (b : Byte) :
    (s.selectBank b).ram = if s.firstSelect b then headCopied s.rom s.ram (bankIndex b * Config.bankSize) else s.ram := rfl
@[simp] theorem State.selectBank_hstate (b : Byte) : (s.selectBank b).hstate = s.hstate := rfl
@[simp] theorem State.selectBank_inq (b : Byte) : (s.selectBank b).inq = s.inq := rfl
@[simp] theorem State.selectBank_outq (b : Byte) : (s.selectBank b).outq = s.outq := rfl
@[simp] theorem State.selectBank_blockingAllowed (b : Byte) :
    (s.selectBank b).blockingAllowed = s.blockingAllowed := rfl
@[simp] theorem State.selectBank_booting (b : Byte) : (s.selectBank b).booting = s.booting := rfl
@[simp] theorem State.selectBank_report (b : Byte) : (s.selectBank b).report = s.report := rfl
@[simp] theorem State.selectBank_icount (b : Byte) : (s.selectBank b).icount = s.icount := rfl
@[simp] theorem State.selectBank_units (b : Byte) : (s.selectBank b).units = s.units := rfl
@[simp] theorem State.selectBank_draws (b : Byte) : (s.selectBank b).draws = s.draws := rfl

/-! ### The other one-record updates, whole -/

theorem afterPortIn_eq (p : Byte) : afterPortIn s p = { s with inq := (afterPortIn s p).inq } := rfl

theorem State.drawPairs_eq : s.drawPairs = { s with main := s.drawPairs.main, draws := s.draws + 3 } := rfl

theorem State.setPairDD_eq (dd : PairDD) (v : Word) :
    s.setPairDD dd v = { s with main := (s.setPairDD dd v).main, sp := (s.setPairDD dd v).sp } := by
  cases dd <;> rfl

theorem State.setPairQQ_eq (qq : PairQQ) (v : Word) :
    s.setPairQQ qq v = { s with main := (s.setPairQQ qq v).main } := by
  cases qq <;> rfl

/-! ### Registers -/

@[simp] theorem RegSet.get_set (x : RegSet) (r r' : Reg8) (v : Byte) :
    (x.set r v).get r' = if r' = r then v else x.get r' := by
  cases r <;> cases r' <;> rfl

@[simp] theorem RegSet.set_f (x : RegSet) (r : Reg8) (v : Byte) : (x.set r v).f = x.f := by cases r <;> rfl

@[simp] theorem State.reg_setReg (r r' : Reg8) (v : Byte) :
    (s.setReg r v).reg r' = if r' = r then v else s.reg r' := RegSet.get_set s.main r r' v

@[simp] theorem mkWord_toNat (h l : Byte) : (mkWord h l).toNat = 256 * h.toNat + l.toNat := by
  have := l.isLt
  rw [mkWord, BitVec.toNat_append, ← Nat.shiftLeft_add_eq_or_of_lt this, Nat.shiftLeft_eq]; omega

@[simp] theorem highByte_mkWord (h l : Byte) : highByte (mkWord h l) = h := by
  have := l.isLt
  apply BitVec.eq_of_toNat_eq
  simp only [highByte, BitVec.toNat_setWidth, BitVec.toNat_ushiftRight, mkWord_toNat, Nat.shiftRight_eq_div_pow]
  omega

@[simp] theorem lowByte_mkWord (h l : Byte) : lowByte (mkWord h l) = l := by
  have := l.isLt
  apply BitVec.eq_of_toNat_eq
  simp only [lowByte, BitVec.toNat_setWidth, mkWord_toNat]
  omega

@[simp] theorem mkWord_high_low (w : Word) : mkWord (highByte w) (lowByte w) = w := by
  have := w.isLt
  apply BitVec.eq_of_toNat_eq
  simp only [mkWord_toNat, highByte, lowByte, BitVec.toNat_setWidth, BitVec.toNat_ushiftRight, Nat.shiftRight_eq_div_pow]
  omega

@[simp] theorem Flags.ofByte_toByte (f : Flags) : Flags.ofByte f.toByte = f := by
  obtain ⟨⟨s, z, h, pv, n, c⟩, y, x⟩ := f
  revert s z h pv n c y x; decide

@[simp] theorem Flags.toByte_ofByte (v : Byte) : (Flags.ofByte v).toByte = v := by
  revert v; decide

@[simp] theorem State.bc_setBC (v : Word) : (s.setBC v).bc = v := mkWord_high_low v
@[simp] theorem State.de_setDE (v : Word) : (s.setDE v).de = v := mkWord_high_low v
@[simp] theorem State.hl_setHL (v : Word) : (s.setHL v).hl = v := mkWord_high_low v
@[simp] theorem State.af_setAF (v : Word) : (s.setAF v).af = v := by
  simp [State.af]

end Sys2Proof.Machine
end

