-- ==== Sys2Proof/Laws/Window.lean ====
section
/-! SUPPORT. The laws of the window: where an address resolves to, what a fetch sees after a store, and that stores,
bank selects and clears keep the canonical form. -/

namespace Sys2Proof.Machine

/-! ### `resolve` -/

theorem bankIndex_lt (b : Byte) : bankIndex b < 16 := Nat.mod_lt _ (by omega)

theorem getLsbD_seven (b : Byte) : b.getLsbD 7 = decide (128 ≤ b.toNat) := by revert b; decide

theorem resolve_common {a : Word} (b : Byte) (h : 0x8000 ≤ a.toNat) :
    resolve b a = .ram (0x78000 + (a.toNat - 0x8000)) := by
  simp only [resolve, h, ↓reduceIte, Config.bankSize]

theorem resolve_ramBank {b : Byte} {a : Word} (h : a.toNat < 0x8000) (hb : 128 ≤ b.toNat) :
    resolve b a = .ram (b.toNat % 16 * 32768 + a.toNat) := by
  rw [resolve, if_neg (by omega), getLsbD_seven, if_pos (by simpa using hb)]
  rfl

theorem resolve_romBank {b : Byte} {a : Word} (h : a.toNat < 0x8000) (hb : b.toNat < 128) :
    resolve b a = .rom (b.toNat % 16 * 32768 + a.toNat) := by
  rw [resolve, if_neg (by omega), getLsbD_seven, if_neg (by simpa using hb)]
  rfl

/-- Every address resolves to a byte that exists. -/
theorem resolve_lt {b : Byte} {a : Word} {k : Nat} (h : resolve b a = .ram k ∨ resolve b a = .rom k) : k < 524288 := by
  have ha := a.isLt
  have hb := bankIndex_lt b
  unfold bankIndex at hb
  by_cases h1 : 0x8000 ≤ a.toNat
  · rw [resolve_common b h1] at h; simp at h; omega
  · by_cases h2 : 128 ≤ b.toNat
    · rw [resolve_ramBank (by omega) h2] at h; simp at h; omega
    · rw [resolve_romBank (by omega) (by omega)] at h; simp at h; omega

/-- Resolving keeps the low fifteen bits of the address: two addresses share a byte only if they agree in them. -/
theorem resolve_mod {b : Byte} {a : Word} {k : Nat} (h : resolve b a = .ram k) : k % 32768 = a.toNat % 32768 := by
  by_cases h1 : 0x8000 ≤ a.toNat
  · rw [resolve_common b h1] at h; simp at h; omega
  · by_cases h2 : 128 ≤ b.toNat
    · rw [resolve_ramBank (by omega) h2] at h; simp at h; omega
    · rw [resolve_romBank (by omega) (by omega)] at h; simp at h

/-! ### Stores -/

/-- A byte of `ram` after a store at a physical byte. -/
theorem read_storeAt (p : Phys) (v : Byte) (m : Memory) (k : Nat) :
    (storeAt p v m).read k = if p = .ram k then v else m.read k := by
  cases p with
  | rom off => simp [storeAt]
  | ram off => simp [storeAt, Memory.read_write, eq_comm]

theorem wf_storeAt {m : Memory} (h : m.wf) (b : Byte) (a : Word) (v : Byte) : (storeAt (resolve b a) v m).wf := by
  cases hr : resolve b a with
  | rom off => exact h
  | ram off => exact Memory.wfBelow_write h (resolve_lt (.inl hr)) v

/-- What a fetch sees after a store, at an address that resolves to RAM. -/
theorem fetch_store_ram (s : State) (a a' : Word) (v : Byte) {k : Nat} (h : resolve s.bank a' = .ram k) :
    (s.store a v).fetch a' = if resolve s.bank a = .ram k then v else s.fetch a' := by
  simp only [State.fetch, State.readBank, State.store, State.writeBank, h]
  exact read_storeAt _ v _ k

/-- A fetch from ROM sees no store. -/
theorem fetch_store_rom (s : State) (a a' : Word) (v : Byte) {k : Nat} (h : resolve s.bank a' = .rom k) :
    (s.store a v).fetch a' = s.fetch a' := by
  simp only [State.fetch, State.readBank, State.store, State.writeBank, h]

theorem ramAfter_nil (s : State) : ramAfter s s.ram [] := fun _ => rfl

theorem ramAfter_store (s : State) (a : Word) (v : Byte) : ramAfter s (s.store a v).ram [(a, v)] := by
  intro k
  simp [State.store, State.writeBank, read_storeAt, byteAfter]

theorem ramAfter_store_store (s : State) (a a' : Word) (v v' : Byte) :
    ramAfter s ((s.store a v).store a' v').ram [(a, v), (a', v')] := by
  intro k
  simp [State.store, State.writeBank, read_storeAt, byteAfter]

/-- A byte after more stores, made last. -/
theorem byteAfter_append (b : Byte) (k : Nat) (old : Byte) (l l' : List (Word × Byte)) :
    byteAfter b k old (l ++ l') = byteAfter b k (byteAfter b k old l) l' := by
  induction l generalizing old with
  | nil => rfl
  | cons c rest ih => obtain ⟨a, v⟩ := c; simp [byteAfter, ih]

theorem lowByte_eq (w : Word) : lowByte w = byteOf w.toNat := by
  apply BitVec.eq_of_toNat_eq; simp [lowByte, byteOf]

theorem highByte_eq (w : Word) : highByte w = byteOf (w.toNat / 256) := by
  apply BitVec.eq_of_toNat_eq
  simp [highByte, byteOf, Nat.shiftRight_eq_div_pow]

theorem ramAfter_store16 (s : State) (a v : Word) :
    ramAfter s (s.store16 a v).ram [(a, byteOf v.toNat), (a + 1, byteOf (v.toNat / 256))] := by
  rw [← lowByte_eq, ← highByte_eq]; exact ramAfter_store_store s a (a + 1) _ _

theorem ramAfter_push16 (s : State) (v : Word) :
    ramAfter s (s.push16 v).ram [(s.sp - 1, byteOf (v.toNat / 256)), (s.sp - 2, byteOf v.toNat)] := by
  rw [← lowByte_eq, ← highByte_eq]; exact ramAfter_store_store s (s.sp - 1) (s.sp - 2) _ _

/-! ### Bank selects -/

theorem read_headCopied (rom ram : Memory) (off k : Nat) :
    (headCopied rom ram off).read k = if off ≤ k ∧ k < off + 512 then rom.read (k - off) else ram.read k := by
  unfold headCopied
  rw [Memory.read_writeList, Memory.length_readList, Config.headSize]
  split
  · rename_i h; rw [Memory.getD_readList _ _ _ _ (by omega)]; simp
  · rfl

theorem wf_headCopied {ram : Memory} (h : ram.wf) (rom : Memory) {off : Nat} (ho : off + 512 ≤ 524288) :
    (headCopied rom ram off).wf := by
  unfold headCopied
  exact Memory.wfBelow_writeList h (by simpa [Config.headSize, Config.physSize] using ho)

theorem wf_blank : Memory.blank.wf := Memory.wfBelow_blank _

theorem wf_selectBank {s : State} (h : s.ram.wf) (b : Byte) : (s.selectBank b).ram.wf := by
  rw [State.selectBank_ram]
  split
  · have := bankIndex_lt b
    exact wf_headCopied h _ (by simp only [Config.bankSize]; omega)
  · exact h

theorem wf_writeCells {m : Memory} (h : m.wf) (cells : List Host.Cell) : (m.writeCells cells).wf := by
  induction cells generalizing m with
  | nil => exact h
  | cons c rest ih =>
    obtain ⟨a, v⟩ := c
    exact ih (Memory.wfBelow_write h (Nat.mod_lt _ (by decide)) v)

end Sys2Proof.Machine
end

