-- ==== Sys2Proof/Laws/Disk.lean ====
section
/-! SUPPORT. The laws of the Disk Store, of the bank copy and of the sector loops: each says once which fields it can
change, that it keeps the invariant's clauses, and, of the sector loops, what any count of sectors does. -/

namespace Sys2Proof.Machine

/-! ### Images -/

theorem cellsFrom_bound (k : Nat) (l : List Byte) : ∀ c ∈ cellsFrom k l, k ≤ c.1 ∧ c.1 < k + l.length ∧ c.2 ≠ Memory.fill := by
  induction l generalizing k with
  | nil => simp [cellsFrom]
  | cons v rest ih =>
    intro c hc
    simp only [cellsFrom] at hc
    split at hc
    · have := ih (k + 1) c hc; rw [List.length_cons]; exact ⟨by omega, by omega, this.2.2⟩
    · rename_i hv
      rcases List.mem_cons.1 hc with hc | hc
      · subst hc; simp [hv]
      · have := ih (k + 1) c hc; rw [List.length_cons]; exact ⟨by omega, by omega, this.2.2⟩

theorem pairwise_cellsFrom (k : Nat) (l : List Byte) : (cellsFrom k l).Pairwise (fun x y => x.1 < y.1) := by
  induction l generalizing k with
  | nil => simp [cellsFrom]
  | cons v rest ih =>
    simp only [cellsFrom]
    split
    · exact ih (k + 1)
    · rw [List.pairwise_cons]
      exact ⟨fun c hc => (cellsFrom_bound (k + 1) rest c hc).1, ih (k + 1)⟩

theorem Blob.wf_ofBytes (l : List Byte) : (Blob.ofBytes l).bytes.wfBelow (Blob.ofBytes l).size := by
  refine ⟨pairwise_cellsFrom 0 l, fun c hc => ?_⟩
  have := cellsFrom_bound 0 l c hc
  exact ⟨by simpa [Blob.ofBytes] using this.2.1, this.2.2⟩

theorem Blob.read_ofBytes (l : List Byte) (k : Nat) : (Blob.ofBytes l).bytes.read k = l.getD k 0 := by
  have key : ∀ (l : List Byte) (j k : Nat), readCells (j + k) (cellsFrom j l) = l.getD k 0 := by
    intro l
    induction l with
    | nil => intros; simp [cellsFrom, readCells, Memory.fill]
    | cons v rest ih =>
      intro j k
      have hlow : readCells j (cellsFrom (j + 1) rest) = Memory.fill :=
        readCells_of_lt fun c hc => (cellsFrom_bound (j + 1) rest c hc).1
      cases k with
      | zero =>
        simp only [cellsFrom, Nat.add_zero]
        split
        · rename_i hv; rw [hlow]; simp [hv]
        · simp [readCells]
      | succ k =>
        have hk := ih (j + 1) k
        rw [show j + 1 + k = j + (k + 1) by omega] at hk
        simp only [cellsFrom]
        split
        · simpa using hk
        · rw [readCells, if_neg (by omega)]; simpa using hk
  simpa [Blob.ofBytes, Memory.read] using key l 0 k

/-! ### Units -/

theorem DiskUnit.ok_absent : DiskUnit.absent.ok := ⟨Memory.wfBelow_blank 0, fun _ => rfl⟩

theorem DiskUnit.ok_attach (l : List Byte) (extra : Fin 8) : (DiskUnit.attach l extra).ok :=
  ⟨Blob.wf_ofBytes l, by simp [DiskUnit.attach]⟩

theorem UnitImage.ok_toUnit (u : UnitImage) : u.toUnit.ok := by
  refine ⟨Blob.wf_ofBytes _, fun h => ?_⟩
  have hp : u.present = false := h
  simp [UnitImage.toUnit, Blob.ofBytes, hp]

/-- Whatever `hbios_ext` answers, an absent unit is empty (49 R560). -/
theorem ok_keepDirty (fn : Byte) (u : UnitImage) (old : DiskUnit) : (keepDirty fn u old).ok := UnitImage.ok_toUnit u

theorem unitAt_hbiosExtended (s : State) (i : Fin 16) :
    (hbiosExtended s).unitAt i = keepDirty s.main.b (Config.hbiosExt s.hbiosArgs).units[i.val] (s.unitAt i) :=
  Vector.getElem_zipWith i.isLt

theorem DiskUnit.ok_advance {u : DiskUnit} (h : u.ok) : u.advance.ok := h

theorem DiskUnit.ok_seek {u : DiskUnit} (h : u.ok) (p : BitVec 32) : (u.seek p).ok := h

theorem DiskUnit.ok_writeSector {u : DiskUnit} (h : u.ok) {buf : List Byte} (hl : buf.length = 512)
    (hr : u.sectorInRange = true) : (u.writeSector buf).ok := by
  refine ⟨Memory.wfBelow_writeList h.1 ?_, h.2⟩
  have hr : (u.position.toNat + 1) * 512 ≤ u.data.size := of_decide_eq_true hr
  show u.position.toNat * 512 + buf.length ≤ u.data.size
  omega

theorem State.unitAt_setUnit (s : State) (i j : Fin 16) (u : DiskUnit) :
    (s.setUnit i u).unitAt j = if j = i then u else s.unitAt j := by
  simp only [State.unitAt, State.setUnit]
  by_cases h : j = i
  · subst h; simp
  · have : i.val ≠ j.val := fun e => h (Fin.ext e.symm)
    simp [h, this]

theorem ok_setUnit {s : State} (h : ∀ j : Fin 16, (s.unitAt j).ok) (i : Fin 16) {u : DiskUnit} (hu : u.ok) :
    ∀ j : Fin 16, ((s.setUnit i u).unitAt j).ok := by
  intro j
  rw [State.unitAt_setUnit]
  split
  · exact hu
  · exact h j

@[simp] theorem State.length_fetchList (s : State) (a : Word) (n : Nat) : (s.fetchList a n).length = n := by
  induction n generalizing a with
  | zero => rfl
  | succ n ih => simp [State.fetchList, ih]

/-! ### Loops: what they can change -/

/-- Storing a list of bytes changes `ram` alone. -/
theorem storeList_eq (s : State) (a : Word) (l : List Byte) :
    s.storeList a l = { s with ram := (s.storeList a l).ram } := by
  induction l generalizing s a with
  | nil => rfl
  | cons v rest ih => rw [State.storeList, ih]; rfl

theorem wf_storeList {s : State} (h : s.ram.wf) (a : Word) (l : List Byte) : (s.storeList a l).ram.wf := by
  induction l generalizing s a with
  | nil => exact h
  | cons v rest ih => exact ih (s := s.store a v) (wf_storeAt h _ _ _) (a + 1)

/-- The bytes of `ram` after a list is stored through the window. -/
theorem ramAfter_storeList (s : State) (a : Word) (l : List Byte) :
    ramAfter s (s.storeList a l).ram ((List.range l.length).map fun k => (a + BitVec.ofNat 16 k, l.getD k 0)) := by
  induction l generalizing s a with
  | nil => exact ramAfter_nil s
  | cons v rest ih =>
    intro k
    have := ih (s.store a v) (a + 1) k
    rw [State.storeList, this]
    show byteAfter s.bank k _ _ = _
    rw [List.length_cons, List.range_succ_eq_map, List.map_cons, List.map_map]
    have e : (fun k => (a + BitVec.ofNat 16 k, (v :: rest).getD k 0)) ∘ Nat.succ =
        fun k => (a + 1 + BitVec.ofNat 16 k, rest.getD k 0) := by
      funext k
      simp only [Function.comp, List.getD_cons_succ, Prod.mk.injEq, and_true]
      apply BitVec.eq_of_toNat_eq; simp [BitVec.toNat_add]; omega
    rw [e]
    have e0 : a + BitVec.ofNat 16 0 = a := by simp
    rw [e0]
    simp only [byteAfter, List.getD_cons_zero]
    rw [show (s.store a v).ram.read k = if resolve s.bank a = .ram k then v else s.ram.read k from read_storeAt _ _ _ _]

theorem getD_fetchList (s : State) (a : Word) (n k : Nat) (h : k < n) :
    (s.fetchList a n).getD k 0 = s.fetch (a + BitVec.ofNat 16 k) := by
  induction n generalizing a k with
  | zero => omega
  | succ n ih =>
    cases k with
    | zero => simp [State.fetchList]
    | succ k =>
      rw [State.fetchList, List.getD_cons_succ, ih _ _ (by omega)]
      congr 1
      apply BitVec.eq_of_toNat_eq; simp [BitVec.toNat_add]; omega

/-- The bank copy's loop changes `ram` alone. -/
theorem copyBytes_eq (sb db : Byte) (n : Nat) (src dst : Word) (s : State) :
    copyBytes sb db n src dst s = { s with ram := (copyBytes sb db n src dst s).ram } := by
  induction n generalizing src dst s with
  | zero => rfl
  | succ n ih => rw [copyBytes, ih]; rfl

theorem wf_copyBytes {s : State} (h : s.ram.wf) (sb db : Byte) (n : Nat) (src dst : Word) :
    (copyBytes sb db n src dst s).ram.wf := by
  induction n generalizing src dst s with
  | zero => exact h
  | succ n ih => exact ih (s := s.writeBank db dst (s.readBank sb src)) (wf_storeAt h _ _ _) _ _

/-- The sector loops change `A`, `E`, `ram` and the unit table alone. -/
theorem diskRead_eq (i : Fin 16) (n done : Nat) (a : Word) (s : State) :
    ∃ st e m u, diskRead i n done a s = { s with main := { s.main with a := st, e := e }, ram := m, units := u } := by
  induction n generalizing done a s with
  | zero => exact ⟨_, _, _, _, rfl⟩
  | succ n ih =>
    rw [diskRead]
    split
    · generalize (s.unitAt i).sector = l
      obtain ⟨st, e, m, u, h⟩ := ih (done + 1) (a + 512) ((s.storeList a l).setUnit i (s.unitAt i).advance)
      rw [h, storeList_eq]
      exact ⟨st, e, m, u, rfl⟩
    · exact ⟨_, _, _, _, rfl⟩

theorem diskWrite_eq (i : Fin 16) (n done : Nat) (a : Word) (s : State) :
    ∃ st e u, diskWrite i n done a s = { s with main := { s.main with a := st, e := e }, units := u } := by
  induction n generalizing done a s with
  | zero => exact ⟨_, _, _, rfl⟩
  | succ n ih =>
    rw [diskWrite]
    split
    · obtain ⟨st, e, u, h⟩ := ih (done + 1) (a + 512)
        (s.setUnit i ((s.unitAt i).writeSector (s.fetchList a Config.sectorSize)))
      exact ⟨st, e, u, h⟩
    · exact ⟨_, _, _, rfl⟩

theorem wf_diskRead {s : State} (h : s.ram.wf) (hu : ∀ j : Fin 16, (s.unitAt j).ok) (i : Fin 16) (n done : Nat)
    (a : Word) : (diskRead i n done a s).ram.wf ∧ ∀ j : Fin 16, ((diskRead i n done a s).unitAt j).ok := by
  induction n generalizing done a s with
  | zero => exact ⟨h, hu⟩
  | succ n ih =>
    rw [diskRead]
    split
    · generalize (s.unitAt i).sector = l
      refine ih (s := (s.storeList a l).setUnit i (s.unitAt i).advance) ?_ ?_ _ _
      · exact wf_storeList h a l
      · refine ok_setUnit ?_ i (DiskUnit.ok_advance (hu i))
        rw [storeList_eq]; exact hu
    · exact ⟨h, hu⟩

theorem ok_diskWrite {s : State} (hu : ∀ j : Fin 16, (s.unitAt j).ok) (i : Fin 16) (n done : Nat) (a : Word) :
    ∀ j : Fin 16, ((diskWrite i n done a s).unitAt j).ok := by
  induction n generalizing done a s with
  | zero => exact hu
  | succ n ih =>
    rw [diskWrite]
    split
    · rename_i hr
      exact ih (ok_setUnit hu i (DiskUnit.ok_writeSector (hu i) (by simp [Config.sectorSize]) hr)) _ _
    · exact hu

/-! ### The sector loops, for every count -/

theorem word_step (a : Word) (n : Nat) : a + 1 + BitVec.ofNat 16 n = a + BitVec.ofNat 16 (n + 1) := by
  apply BitVec.eq_of_toNat_eq; simp [BitVec.toNat_add]; omega

theorem State.storeList_append (s : State) (a : Word) (l r : List Byte) :
    s.storeList a (l ++ r) = (s.storeList a l).storeList (a + BitVec.ofNat 16 l.length) r := by
  induction l generalizing s a with
  | nil => simp [State.storeList]
  | cons v rest ih => rw [List.cons_append, State.storeList, ih, State.storeList, List.length_cons, word_step]

theorem State.fetchList_add (s : State) (a : Word) (j n : Nat) :
    s.fetchList a (j + n) = s.fetchList a j ++ s.fetchList (a + BitVec.ofNat 16 j) n := by
  induction j generalizing a with
  | zero => simp [State.fetchList]
  | succ j ih => rw [Nat.succ_add, State.fetchList, ih, State.fetchList, word_step]; rfl

/-- The whole sectors of the image from `position` on. -/
def DiskUnit.sectorsLeft (u : DiskUnit) : Nat := u.data.size / 512 - u.position.toNat

theorem DiskUnit.sectorInRange_eq (u : DiskUnit) : u.sectorInRange = decide (0 < u.sectorsLeft) := by
  unfold DiskUnit.sectorInRange DiskUnit.sectorsLeft Config.sectorSize
  congr 1; apply propext; omega

theorem State.setUnit_setUnit (s : State) (i : Fin 16) (u v : DiskUnit) : (s.setUnit i u).setUnit i v = s.setUnit i v := by
  simp [State.setUnit, Vector.set_set]

theorem State.setUnit_unitAt (s : State) (i : Fin 16) : s.setUnit i (s.unitAt i) = s := by
  simp [State.setUnit, State.unitAt]


theorem State.storeList_setUnit (s : State) (i : Fin 16) (u : DiskUnit) (a : Word) (l : List Byte) :
    (s.setUnit i u).storeList a l = (s.storeList a l).setUnit i u := by
  induction l generalizing s a with
  | nil => rfl
  | cons v rest ih => exact ih (s.store a v) (a + 1)

theorem State.fetchList_setUnit (s : State) (i : Fin 16) (u : DiskUnit) (a : Word) (n : Nat) :
    (s.setUnit i u).fetchList a n = s.fetchList a n := by
  induction n generalizing a with
  | zero => rfl
  | succ n ih => rw [State.fetchList, State.fetchList, ih]; rfl

/-- A unit with `k` sectors read from its `position` on. -/
def DiskUnit.afterRead (u : DiskUnit) (k : Nat) : DiskUnit :=
  { u with position := BitVec.ofNat 32 (u.position.toNat + k) }

/-- A unit with the bytes of `k` sectors written from its `position` on. -/
def DiskUnit.afterWrite (u : DiskUnit) (k : Nat) (bytes : List Byte) : DiskUnit :=
  { u with
    data := { u.data with bytes := u.data.bytes.writeList (u.position.toNat * 512) bytes }
    dirty := decide (k ≠ 0) || u.dirty
    position := BitVec.ofNat 32 (u.position.toNat + k) }

theorem DiskUnit.afterRead_zero (u : DiskUnit) : u.afterRead 0 = u := by simp [DiskUnit.afterRead]

theorem DiskUnit.afterWrite_zero (u : DiskUnit) : u.afterWrite 0 [] = u := by simp [DiskUnit.afterWrite, Memory.writeList]

theorem position_succ {p : BitVec 32} {k : Nat} (h : p.toNat + (k + 1) < 4294967296) : (p + 1).toNat = p.toNat + 1 := by
  simp [BitVec.toNat_add]; omega

theorem DiskUnit.afterRead_succ {u : DiskUnit} {k : Nat} (h : u.position.toNat + (k + 1) < 4294967296) :
    u.advance.afterRead k = u.afterRead (k + 1) := by
  unfold DiskUnit.afterRead DiskUnit.advance
  simp only [position_succ h, Nat.add_assoc, Nat.add_comm 1]

theorem DiskUnit.afterWrite_succ {u : DiskUnit} {k : Nat} (h : u.position.toNat + (k + 1) < 4294967296) {buf : List Byte}
    (hb : buf.length = 512) (bytes : List Byte) :
    (u.writeSector buf).afterWrite k bytes = u.afterWrite (k + 1) (buf ++ bytes) := by
  unfold DiskUnit.afterWrite DiskUnit.writeSector
  simp only [position_succ h, Nat.add_assoc, Nat.add_comm 1, Memory.writeList_append, hb, Nat.succ_mul, Config.sectorSize]
  simp

/-- DIOREAD's loop, for every count: `k` sectors are done (49 R532). -/
theorem diskRead_count {i : Fin 16} {n k : Nat} (done : Nat) (a : Word) {s : State}
    (hk : k = min n (s.unitAt i).sectorsLeft) (hp : (s.unitAt i).position.toNat + k < 4294967296) :
    diskRead i n done a s =
      ((s.storeList a ((s.unitAt i).data.bytes.readList ((s.unitAt i).position.toNat * 512) (512 * k))).setUnit i
        ((s.unitAt i).afterRead k)).setDiskStatus (if k = n then 0x00 else 0x03) (done + k) := by
  induction n generalizing k done a s with
  | zero =>
    obtain rfl : k = 0 := by omega
    rw [DiskUnit.afterRead_zero]
    simp [diskRead, State.storeList, Memory.readList, State.setUnit_unitAt]
  | succ n ih =>
    rw [diskRead, DiskUnit.sectorInRange_eq]
    by_cases hr : 0 < (s.unitAt i).sectorsLeft
    · obtain ⟨k, rfl⟩ : ∃ j, k = j + 1 := ⟨k - 1, by omega⟩
      rw [if_pos (by simpa using hr)]
      have hb : (s.unitAt i).data.bytes.readList ((s.unitAt i).position.toNat * 512) (512 * (k + 1)) =
          (s.unitAt i).sector ++
            (s.unitAt i).data.bytes.readList (((s.unitAt i).position.toNat + 1) * 512) (512 * k) := by
        rw [Nat.mul_add 512 k, Nat.add_comm (512 * k), Memory.readList_add, Nat.add_mul]; rfl
      have hlen : (s.unitAt i).sector.length = 512 := Memory.length_readList _ _ _
      rw [hb, State.storeList_append, hlen]
      generalize (s.unitAt i).sector = l
      have hw := position_succ hp
      have hu : ((s.storeList a l).setUnit i (s.unitAt i).advance).unitAt i = (s.unitAt i).advance := by
        rw [State.unitAt_setUnit, if_pos rfl]
      have hs : (s.unitAt i).advance.sectorsLeft = (s.unitAt i).sectorsLeft - 1 := by
        show (s.unitAt i).data.size / 512 - ((s.unitAt i).position + 1).toNat = _
        rw [hw]; unfold DiskUnit.sectorsLeft; omega
      have e1 : (s.unitAt i).advance.position.toNat = (s.unitAt i).position.toNat + 1 := hw
      rw [ih (k := k) (done + 1) (a + 512) (by rw [hu, hs]; omega) (by rw [hu, e1]; omega), hu, e1,
        DiskUnit.afterRead_succ hp, State.storeList_setUnit, State.setUnit_setUnit]
      simp only [Nat.add_right_cancel_iff, Nat.add_assoc, Nat.add_comm 1]
      rfl
    · obtain rfl : k = 0 := by omega
      rw [if_neg (by simpa using hr), DiskUnit.afterRead_zero]
      simp [State.storeList, Memory.readList, State.setUnit_unitAt]

/-- DIOWRITE's loop, for every count (49 R533). -/
theorem diskWrite_count {i : Fin 16} {n k : Nat} (done : Nat) (a : Word) {s : State}
    (hk : k = min n (s.unitAt i).sectorsLeft) (hp : (s.unitAt i).position.toNat + k < 4294967296) :
    diskWrite i n done a s =
      (s.setUnit i ((s.unitAt i).afterWrite k (s.fetchList a (512 * k)))).setDiskStatus
        (if k = n then 0x00 else 0x03) (done + k) := by
  induction n generalizing k done a s with
  | zero =>
    obtain rfl : k = 0 := by omega
    rw [Nat.mul_zero, State.fetchList, DiskUnit.afterWrite_zero]
    simp [diskWrite, State.setUnit_unitAt]
  | succ n ih =>
    rw [diskWrite, DiskUnit.sectorInRange_eq]
    by_cases hr : 0 < (s.unitAt i).sectorsLeft
    · obtain ⟨k, rfl⟩ : ∃ j, k = j + 1 := ⟨k - 1, by omega⟩
      rw [if_pos (by simpa using hr)]
      have hlen : (s.fetchList a Config.sectorSize).length = 512 := State.length_fetchList _ _ _
      have hb : s.fetchList a (512 * (k + 1)) = s.fetchList a Config.sectorSize ++ s.fetchList (a + 512) (512 * k) := by
        rw [Nat.mul_add 512 k, Nat.add_comm (512 * k), State.fetchList_add]; rfl
      rw [hb]
      generalize s.fetchList a Config.sectorSize = l at hlen ⊢
      have hw := position_succ hp
      have hu : (s.setUnit i ((s.unitAt i).writeSector l)).unitAt i = (s.unitAt i).writeSector l := by
        rw [State.unitAt_setUnit, if_pos rfl]
      have hs : ((s.unitAt i).writeSector l).sectorsLeft = (s.unitAt i).sectorsLeft - 1 := by
        show (s.unitAt i).data.size / 512 - ((s.unitAt i).position + 1).toNat = _
        rw [hw]; unfold DiskUnit.sectorsLeft; omega
      have e1 : ((s.unitAt i).writeSector l).position.toNat = (s.unitAt i).position.toNat + 1 := hw
      rw [ih (k := k) (done + 1) (a + 512) (by rw [hu, hs]; omega) (by rw [hu, e1]; omega), hu,
        State.fetchList_setUnit, DiskUnit.afterWrite_succ hp hlen, State.setUnit_setUnit]
      simp only [Nat.add_right_cancel_iff, Nat.add_assoc, Nat.add_comm 1]
    · obtain rfl : k = 0 := by omega
      rw [if_neg (by simpa using hr), Nat.mul_zero, State.fetchList, DiskUnit.afterWrite_zero]
      simp [State.setUnit_unitAt]

end Sys2Proof.Machine
end

