-- ==== Sys2Proof/Laws/Exec.lean ====
section
/-! SUPPORT. The laws of the steps: decoding from the four bytes, an executed instruction's own changes, and what the
port level can change. -/

namespace Sys2Proof.Machine

/-! ### Decoding -/

theorem decodesTo_one {b0 : Byte} {i : Instr} (h : ∀ b1 b2 b3, decode4 b0 b1 b2 b3 = .instr i 1) :
    decodesTo [b0] i := by
  intro rest
  have : decode4 (([b0] ++ rest).getD 0 0) (([b0] ++ rest).getD 1 0) (([b0] ++ rest).getD 2 0)
      (([b0] ++ rest).getD 3 0) = .instr i 1 := h _ _ _
  rw [decode, this]; simp

theorem decodesTo_two {b0 b1 : Byte} {i : Instr} (h : ∀ b2 b3, decode4 b0 b1 b2 b3 = .instr i 2) :
    decodesTo [b0, b1] i := by
  intro rest
  have : decode4 (([b0, b1] ++ rest).getD 0 0) (([b0, b1] ++ rest).getD 1 0) (([b0, b1] ++ rest).getD 2 0)
      (([b0, b1] ++ rest).getD 3 0) = .instr i 2 := h _ _
  rw [decode, this]; simp

theorem decodesTo_three {b0 b1 b2 : Byte} {i : Instr} (h : ∀ b3, decode4 b0 b1 b2 b3 = .instr i 3) :
    decodesTo [b0, b1, b2] i := by
  intro rest
  have : decode4 (([b0, b1, b2] ++ rest).getD 0 0) (([b0, b1, b2] ++ rest).getD 1 0)
      (([b0, b1, b2] ++ rest).getD 2 0) (([b0, b1, b2] ++ rest).getD 3 0) = .instr i 3 := h _
  rw [decode, this]; simp

theorem decodesTo_four {b0 b1 b2 b3 : Byte} {i : Instr} (h : decode4 b0 b1 b2 b3 = .instr i 4) :
    decodesTo [b0, b1, b2, b3] i := by
  intro rest
  have : decode4 (([b0, b1, b2, b3] ++ rest).getD 0 0) (([b0, b1, b2, b3] ++ rest).getD 1 0)
      (([b0, b1, b2, b3] ++ rest).getD 2 0) (([b0, b1, b2, b3] ++ rest).getD 3 0) = .instr i 4 := h
  rw [decode, this]; simp

theorem mkWord_byteOf (w : Word) : mkWord (byteOf (w.toNat / 256)) (byteOf w.toNat) = w := by
  rw [← lowByte_eq, ← highByte_eq, mkWord_high_low]

/-! ### Displacements -/

theorem addSigned_eq (base : Word) (d : Byte) : addSigned base d = BitVec.ofInt 16 (base.toNat + d.toInt) := by
  apply BitVec.eq_of_toInt_eq
  rw [addSigned, BitVec.toInt_add, BitVec.toInt_signExtend_of_le (by omega), BitVec.toInt_ofInt,
    BitVec.toInt_eq_toNat_bmod]
  simp

/-! ### An executed instruction's own changes -/

theorem stepR_eq (r : Byte) (k : Nat) : stepR r k = refreshed r k := by
  have h : ∀ r k : Byte, stepR r k.toNat = refreshed r k.toNat := by
    intro r k
    apply BitVec.eq_of_toNat_eq
    have hr := r.isLt
    have hk := k.isLt
    have h1 : (r &&& 0x80).toNat = r.toNat / 128 * 128 := by revert r; decide
    have h2 : ∀ x : Byte, (x &&& 0x7F).toNat = x.toNat % 128 := by decide
    have h3 : ((r &&& 0x80) ||| ((r + k) &&& 0x7F)) = (r &&& 0x80) + ((r + k) &&& 0x7F) := by
      have : ∀ x y : Byte, ((x &&& 0x80) ||| (y &&& 0x7F)) = (x &&& 0x80) + (y &&& 0x7F) := by
        intro x y
        have d : (x &&& 0x80) &&& (y &&& 0x7F) = 0 := by
          apply BitVec.eq_of_getLsbD_eq
          intro i hi
          interval_cases i <;> simp
        exact (BitVec.add_eq_or_of_and_eq_zero _ _ d).symm
      exact this r (r + k)
    simp only [stepR, refreshed, BitVec.ofNat_toNat, BitVec.setWidth_eq, h3, BitVec.toNat_add, h1, h2,
      BitVec.toNat_ofNat]
    omega
  have hk : stepR r k = stepR r (BitVec.ofNat 8 k).toNat := by
    unfold stepR; congr 1; simp only [BitVec.toNat_ofNat]; omega
  have hm : BitVec.ofNat 8 (BitVec.ofNat 8 k).toNat = BitVec.ofNat 8 k := by
    apply BitVec.eq_of_toNat_eq; simp
  rw [hk, h, refreshed, hm, refreshed]

theorem pcn_eq (s : State) (len : Nat) : s.pcn len = s.pc + BitVec.ofNat 16 len := by
  apply BitVec.eq_of_toNat_eq; simp [State.pcn]

/-- What every instruction does: 10 R25, R29, R42. -/
theorem retire_eq (s : State) (len m1 : Nat) : s.retire len m1 = fetched s len m1 := by
  rw [State.retire, fetched, pcn_eq, stepR_eq]

/-- Every write of `F` leaves the two storage bits and the counter open. -/
theorem setFlags_eq (s : State) (f : DocFlags) : s.setFlags f = flagged s f s.drawn.y s.drawn.x (s.draws + 1) := rfl

/-! ### The unit a disk function addresses (49 R530) -/

theorem selectedUnit_eq {t : State} {i : Fin 16} (h : t.main.c.toNat = i.val) :
    t.selectedUnit = if (t.unitAt i).present then .ok i else .error 0x02 := by
  obtain ⟨k, hk⟩ := i
  simp only at h
  subst h
  rw [State.selectedUnit, dif_pos hk]
  rfl

theorem onUnit_present {t : State} {i : Fin 16} (h : t.main.c.toNat = i.val) (hp : (t.unitAt i).present = true)
    (f : Fin 16 → State) : onUnit t f = f i := by
  rw [onUnit, selectedUnit_eq h, hp]; rfl

theorem onUnit_absent {t : State} {i : Fin 16} (h : t.main.c.toNat = i.val) (hp : (t.unitAt i).present = false)
    (f : Fin 16 → State) : onUnit t f = t.setA 0x02 := by
  rw [onUnit, selectedUnit_eq h, hp]; rfl

theorem onUnit_outside {t : State} (h : 16 ≤ t.main.c.toNat) (f : Fin 16 → State) : onUnit t f = t.setA 0x01 := by
  rw [onUnit, State.selectedUnit, dif_neg (by omega)]

/-! ### Block steps -/

@[simp] theorem bc_blockMove (t : State) (d : Word) : (blockMove t d).bc = t.bc - 1 := mkWord_high_low _

@[simp] theorem bc_blockCompare (t : State) (d : Word) : (blockCompare t d).bc = t.bc - 1 := mkWord_high_low _

@[simp] theorem z_blockCompare (t : State) (d : Word) :
    (blockCompare t d).main.f.z = (sub8 t.main.a (t.fetch t.hl) false).flags.z := rfl

@[simp] theorem b_countIo (t : State) (d : Word) : (countIo t d).main.b = t.main.b - 1 := rfl

/-! ### What the port level can change -/

/-- `u` differs from `t` in nothing but the main registers other than `F`, the bank register, `INITMASK`, `ram`, `PC`, the
rings, the unit table and the model's counter; an empty input ring stays empty. -/
def PortFrame (t u : State) : Prop :=
  u = { t with
    main := { u.main with f := t.main.f }, bank := u.bank, initMask := u.initMask, ram := u.ram, pc := u.pc
    inq := u.inq, outq := u.outq, units := u.units, draws := u.draws } ∧
  (t.inq = [] → u.inq = [])

theorem portFrame_onUnit (t : State) (f : Fin 16 → State) (h : ∀ i, PortFrame t (f i)) : PortFrame t (onUnit t f) := by
  unfold onUnit
  split
  · exact h _
  · exact ⟨rfl, id⟩

theorem portFrame_diskRead (i : Fin 16) (n done : Nat) (a : Word) (s : State) : PortFrame s (diskRead i n done a s) := by
  obtain ⟨st, e, m, u, h⟩ := diskRead_eq i n done a s
  rw [h]; exact ⟨rfl, id⟩

theorem portFrame_diskWrite (i : Fin 16) (n done : Nat) (a : Word) (s : State) :
    PortFrame s (diskWrite i n done a s) := by
  obtain ⟨st, e, u, h⟩ := diskWrite_eq i n done a s
  rw [h]; exact ⟨rfl, id⟩

/-- The HBIOS dispatch (49 R519 to R550): an annulled step, or a next state within the frame. -/
theorem hbiosDispatch_next {before t u : State} (h : hbiosDispatch before t = .next u) :
    (u = before.annul ∧ t.inq = []) ∨ PortFrame t u := by
  unfold hbiosDispatch at h
  split at h
  · obtain ⟨rfl⟩ := h
    unfold cioIn
    cases hq : t.inq with
    | nil => exact .inl ⟨rfl, rfl⟩
    | cons v rest => exact .inr ⟨rfl, by simp [hq]⟩
  · obtain ⟨rfl⟩ := h; exact .inr ⟨rfl, id⟩
  · obtain ⟨rfl⟩ := h; exact .inr ⟨rfl, id⟩
  · obtain ⟨rfl⟩ := h; exact .inr ⟨rfl, id⟩
  · obtain ⟨rfl⟩ := h; exact .inr (portFrame_onUnit _ _ fun i => ⟨rfl, id⟩)
  · obtain ⟨rfl⟩ := h; exact .inr (portFrame_onUnit _ _ fun i => portFrame_diskRead _ _ _ _ _)
  · obtain ⟨rfl⟩ := h; exact .inr (portFrame_onUnit _ _ fun i => portFrame_diskWrite _ _ _ _ _)
  · obtain ⟨rfl⟩ := h; exact .inr (portFrame_onUnit _ _ fun i => ⟨rfl, id⟩)
  · obtain ⟨rfl⟩ := h
    refine .inr ?_
    unfold sysReset resetCallback
    cases t.main.e == 0x01 <;> exact ⟨rfl, id⟩
  · obtain ⟨rfl⟩ := h; exact .inr ⟨rfl, id⟩
  · obtain ⟨rfl⟩ := h; exact .inr ⟨rfl, id⟩
  · obtain ⟨rfl⟩ := h; exact .inr ⟨rfl, id⟩
  · obtain ⟨rfl⟩ := h; exact .inr ⟨rfl, id⟩
  · obtain ⟨rfl⟩ := h; exact .inr ⟨rfl, id⟩
  · obtain ⟨rfl⟩ := h; exact .inr ⟨rfl, id⟩
  · cases h
  · obtain ⟨rfl⟩ := h; exact .inr ⟨rfl, id⟩

/-- `PortOut` (49 R502): an annulled step behind port `0xEF`, or a next state within the frame. -/
theorem portOut_next {before t u : State} {p v : Byte} (h : portOut before t p v = .next u) :
    (p = 0xEF ∧ u = before.annul ∧ t.inq = []) ∨ PortFrame t u := by
  unfold portOut at h
  split at h
  · obtain ⟨rfl⟩ := h; exact .inr ⟨rfl, id⟩
  split at h
  · obtain ⟨rfl⟩ := h; exact .inr ⟨rfl, id⟩
  split at h
  · unfold bankCopy at h
    split at h
    · cases h
    · obtain ⟨rfl⟩ := h; refine .inr ?_; rw [copyBytes_eq]; exact ⟨rfl, id⟩
  split at h
  · cases h
  split at h
  · cases h
  split at h
  · rename_i hp
    rcases hbiosDispatch_next h with h | h
    · exact .inl ⟨hp, h⟩
    · exact .inr h
  · obtain ⟨rfl⟩ := h; exact .inr ⟨rfl, id⟩

/-- The clauses of the invariant that the port level can touch. -/
def Sound (t : State) : Prop := t.ram.wf ∧ ∀ j : Fin 16, (t.unitAt j).ok

theorem sound_onUnit {t : State} (h : Sound t) (f : Fin 16 → State) (hf : ∀ i, Sound (f i)) : Sound (onUnit t f) := by
  unfold onUnit
  split
  · exact hf _
  · exact h

/-- The HBIOS dispatch keeps them. -/
theorem sound_hbiosDispatch {before t u : State} (hb : Sound before) (ht : Sound t)
    (h : hbiosDispatch before t = .next u) : Sound u := by
  unfold hbiosDispatch at h
  split at h
  · obtain ⟨rfl⟩ := h
    unfold cioIn State.annul
    split
    · exact ht
    · split <;> exact hb
  · obtain ⟨rfl⟩ := h; exact ht
  · obtain ⟨rfl⟩ := h; exact ht
  · obtain ⟨rfl⟩ := h; exact ht
  · obtain ⟨rfl⟩ := h
    exact sound_onUnit ht _ fun i => ⟨ht.1, ok_setUnit ht.2 i (DiskUnit.ok_seek (ht.2 i) _)⟩
  · obtain ⟨rfl⟩ := h
    exact sound_onUnit ht _ fun i => wf_diskRead ht.1 ht.2 i _ _ _
  · obtain ⟨rfl⟩ := h
    refine sound_onUnit ht _ fun i => ⟨?_, ok_diskWrite ht.2 i _ _ _⟩
    obtain ⟨_, _, _, hw⟩ := diskWrite_eq i t.main.e.toNat 0 t.hl t
    rw [hw]; exact ht.1
  · obtain ⟨rfl⟩ := h
    exact sound_onUnit ht _ fun i => ht
  · obtain ⟨rfl⟩ := h
    unfold sysReset resetCallback
    cases t.main.e == 0x01
    · exact ⟨wf_selectBank (s := t.clearRam.copyHead 0) (wf_headCopied wf_blank _ (by omega)) 0, ht.2⟩
    · exact ⟨wf_selectBank ht.1 0, ht.2⟩
  · obtain ⟨rfl⟩ := h; exact ht
  · obtain ⟨rfl⟩ := h; exact ⟨wf_selectBank ht.1 _, ht.2⟩
  · obtain ⟨rfl⟩ := h; exact ht
  · obtain ⟨rfl⟩ := h
    exact ⟨wf_storeAt (m := storeAt (resolve t.bank 0xFFE4) t.main.e t.ram) (wf_storeAt ht.1 _ _ _) t.bank 0xFFE7 t.main.d,
      ht.2⟩
  · obtain ⟨rfl⟩ := h; exact ht
  · obtain ⟨rfl⟩ := h; exact ⟨wf_storeAt ht.1 _ _ _, ht.2⟩
  · cases h
  · obtain ⟨rfl⟩ := h
    exact ⟨wf_writeCells ht.1 _, fun j => by rw [unitAt_hbiosExtended]; exact ok_keepDirty _ _ _⟩

/-- `PortOut` keeps them. -/
theorem sound_portOut {before t u : State} {p v : Byte} (hb : Sound before) (ht : Sound t)
    (h : portOut before t p v = .next u) : Sound u := by
  unfold portOut at h
  split at h
  · obtain ⟨rfl⟩ := h; exact ht
  split at h
  · obtain ⟨rfl⟩ := h; exact ⟨wf_selectBank ht.1 _, ht.2⟩
  split at h
  · unfold bankCopy at h
    split at h
    · cases h
    · obtain ⟨rfl⟩ := h
      refine ⟨wf_copyBytes ht.1 _ _ _ _ _, ?_⟩
      rw [copyBytes_eq]; exact ht.2
  split at h
  · cases h
  split at h
  · cases h
  split at h
  · exact sound_hbiosDispatch hb ht h
  · obtain ⟨rfl⟩ := h; exact ht

/-- What `PortOut` does with nothing of the outside world involved: no port but `0xEC` to `0xEF`. -/
theorem portOut_plain (before t : State) (v : Byte) {p : Byte} (h : p ∉ [0xEC, 0xED, 0xEE, 0xEF]) :
    portOut before t p v = .next (if p = 0x68 then { t with outq := t.outq ++ [v] }
      else if p = 0x78 ∨ p = 0x7C then t.selectBank v else t) := by
  simp only [List.mem_cons, List.not_mem_nil, or_false, not_or] at h
  unfold portOut
  simp only [h.1, h.2.1, h.2.2.1, h.2.2.2, ↓reduceIte]
  split
  · rfl
  · split <;> rfl

end Sys2Proof.Machine
end

