-- ==== Sys2Proof/Laws/Frame.lean ====
section
/-! SUPPORT. What an instruction that is neither an output instruction nor `HALT` leaves alone: one lemma a shared
operation, then one for `exec`. -/

namespace Sys2Proof.Machine

/-- `t` agrees with `s` in every piece of state that only the port level, `HALT` or the host writes; its memory keeps the
canonical form and an empty input ring stays empty. -/
structure Quiet (s t : State) : Prop where
  halted          : t.halted = s.halted
  bank            : t.bank = s.bank
  initMask        : t.initMask = s.initMask
  rom             : t.rom = s.rom
  hstate          : t.hstate = s.hstate
  outq            : t.outq = s.outq
  blockingAllowed : t.blockingAllowed = s.blockingAllowed
  booting         : t.booting = s.booting
  report          : t.report = s.report
  units           : t.units = s.units
  ram             : s.ram.wf → t.ram.wf
  inq             : s.inq = [] → t.inq = []

namespace Quiet

variable {s t : State}

theorem rfl : Quiet s s := ⟨Eq.refl _, Eq.refl _, Eq.refl _, Eq.refl _, Eq.refl _, Eq.refl _, Eq.refl _, Eq.refl _,
  Eq.refl _, Eq.refl _, id, id⟩

/-! ### Updates of registers and counters -/

theorem main (h : Quiet s t) (x : RegSet) : Quiet s { t with main := x } := ⟨h.1, h.2, h.3, h.4, h.5, h.6, h.7, h.8, h.9, h.10, h.11, h.12⟩

theorem sets (h : Quiet s t) (x y : RegSet) : Quiet s { t with main := x, shadow := y } := ⟨h.1, h.2, h.3, h.4, h.5, h.6, h.7, h.8, h.9, h.10, h.11, h.12⟩

theorem flags (h : Quiet s t) (x : RegSet) (n : Nat) : Quiet s { t with main := x, draws := n } := ⟨h.1, h.2, h.3, h.4, h.5, h.6, h.7, h.8, h.9, h.10, h.11, h.12⟩

theorem ix (h : Quiet s t) (v : Word) : Quiet s { t with ix := v } := ⟨h.1, h.2, h.3, h.4, h.5, h.6, h.7, h.8, h.9, h.10, h.11, h.12⟩

theorem iy (h : Quiet s t) (v : Word) : Quiet s { t with iy := v } := ⟨h.1, h.2, h.3, h.4, h.5, h.6, h.7, h.8, h.9, h.10, h.11, h.12⟩

theorem sp (h : Quiet s t) (v : Word) : Quiet s { t with sp := v } := ⟨h.1, h.2, h.3, h.4, h.5, h.6, h.7, h.8, h.9, h.10, h.11, h.12⟩

theorem pc (h : Quiet s t) (v : Word) : Quiet s { t with pc := v } := ⟨h.1, h.2, h.3, h.4, h.5, h.6, h.7, h.8, h.9, h.10, h.11, h.12⟩

theorem iReg (h : Quiet s t) (v : Byte) : Quiet s { t with iReg := v } := ⟨h.1, h.2, h.3, h.4, h.5, h.6, h.7, h.8, h.9, h.10, h.11, h.12⟩

theorem rReg (h : Quiet s t) (v : Byte) : Quiet s { t with rReg := v } := ⟨h.1, h.2, h.3, h.4, h.5, h.6, h.7, h.8, h.9, h.10, h.11, h.12⟩

theorem iff1 (h : Quiet s t) (v : Bool) : Quiet s { t with iff1 := v } := ⟨h.1, h.2, h.3, h.4, h.5, h.6, h.7, h.8, h.9, h.10, h.11, h.12⟩

theorem im (h : Quiet s t) (v : IntMode) : Quiet s { t with im := v } := ⟨h.1, h.2, h.3, h.4, h.5, h.6, h.7, h.8, h.9, h.10, h.11, h.12⟩

theorem iffs (h : Quiet s t) (v w : Bool) : Quiet s { t with iff1 := v, iff2 := w } := ⟨h.1, h.2, h.3, h.4, h.5, h.6, h.7, h.8, h.9, h.10, h.11, h.12⟩

theorem retire (h : Quiet s t) (len m1 : Nat) : Quiet s (t.retire len m1) := ⟨h.1, h.2, h.3, h.4, h.5, h.6, h.7, h.8, h.9, h.10, h.11, h.12⟩

theorem setReg (h : Quiet s t) (r : Reg8) (v : Byte) : Quiet s (t.setReg r v) := h.main _

theorem setBC (h : Quiet s t) (v : Word) : Quiet s (t.setBC v) := h.main _

theorem setDE (h : Quiet s t) (v : Word) : Quiet s (t.setDE v) := h.main _

theorem setHL (h : Quiet s t) (v : Word) : Quiet s (t.setHL v) := h.main _

theorem setPairDD (h : Quiet s t) (dd : PairDD) (v : Word) : Quiet s (t.setPairDD dd v) := by
  cases dd
  · exact h.main _
  · exact h.main _
  · exact h.main _
  · exact h.sp _

theorem setPairQQ (h : Quiet s t) (qq : PairQQ) (v : Word) : Quiet s (t.setPairQQ qq v) := by
  cases qq <;> exact h.main _

theorem setFlags (h : Quiet s t) (f : DocFlags) : Quiet s (t.setFlags f) := h.flags _ _

/-! ### Memory and the stack -/

theorem store (h : Quiet s t) (a : Word) (v : Byte) : Quiet s (t.store a v) :=
  ⟨h.1, h.2, h.3, h.4, h.5, h.6, h.7, h.8, h.9, h.10, fun w => wf_storeAt (h.11 w) t.bank a v, h.12⟩

theorem store16 (h : Quiet s t) (a v : Word) : Quiet s (t.store16 a v) := (h.store _ _).store _ _

theorem push16 (h : Quiet s t) (v : Word) : Quiet s (t.push16 v) := ((h.store _ _).store _ _).sp _

theorem dropTop (h : Quiet s t) : Quiet s t.dropTop := h.sp _

/-! ### Shared operations of the families -/

theorem loadSpecial (h : Quiet s t) (v : Byte) : Quiet s (loadSpecial t v) := (h.setReg _ _).setFlags _

theorem addA (h : Quiet s t) (v : Byte) : Quiet s (addA t v) := (h.setReg _ _).setFlags _

theorem adcA (h : Quiet s t) (v : Byte) : Quiet s (adcA t v) := (h.setReg _ _).setFlags _

theorem subA (h : Quiet s t) (v : Byte) : Quiet s (subA t v) := (h.setReg _ _).setFlags _

theorem sbcA (h : Quiet s t) (v : Byte) : Quiet s (sbcA t v) := (h.setReg _ _).setFlags _

theorem andA (h : Quiet s t) (v : Byte) : Quiet s (andA t v) := (h.setReg _ _).setFlags _

theorem xorA (h : Quiet s t) (v : Byte) : Quiet s (xorA t v) := (h.setReg _ _).setFlags _

theorem orA (h : Quiet s t) (v : Byte) : Quiet s (orA t v) := (h.setReg _ _).setFlags _

theorem cpA (h : Quiet s t) (v : Byte) : Quiet s (cpA t v) := h.setFlags _

theorem putReg (h : Quiet s t) (r : Reg8) (x : Alu8) : Quiet s (putReg t r x) := (h.setReg _ _).setFlags _

theorem putMem (h : Quiet s t) (a : Word) (x : Alu8) : Quiet s (putMem t a x) := (h.store _ _).setFlags _

theorem rotateA (h : Quiet s t) (x : Shift8) : Quiet s (rotateA t x) := (h.setReg _ _).setFlags _

theorem shiftReg (h : Quiet s t) (r : Reg8) (x : Shift8) : Quiet s (shiftReg t r x) := (h.setReg _ _).setFlags _

theorem shiftMem (h : Quiet s t) (a : Word) (x : Shift8) : Quiet s (shiftMem t a x) := (h.store _ _).setFlags _

theorem digitRotate (h : Quiet s t) (a : Word) (m acc : Byte) : Quiet s (digitRotate t a m acc) :=
  ((h.store _ _).setReg _ _).setFlags _

theorem testBit (h : Quiet s t) (b : Nat) (v : Byte) : Quiet s (testBit t b v) := h.setFlags _

theorem jumpTo (h : Quiet s t) (a : Word) : Quiet s (jumpTo t a) := h.pc _

theorem jumpRelative (h : Quiet s t) (e : Byte) : Quiet s (jumpRelative t e) := h.pc _

theorem callTo (h : Quiet s t) (a : Word) : Quiet s (callTo t a) := (h.push16 _).pc _

theorem returnFrom (h : Quiet s t) : Quiet s (returnFrom t) := h.dropTop.pc _

theorem blockMove (h : Quiet s t) (d : Word) : Quiet s (blockMove t d) :=
  ((((h.store _ _).setHL _).setDE _).setBC _).setFlags _

theorem blockCompare (h : Quiet s t) (d : Word) : Quiet s (blockCompare t d) := ((h.setHL _).setBC _).setFlags _

theorem repeatWhile (h : Quiet s t) (again : Bool) (pc0 : Word) : Quiet s (repeatWhile again pc0 t) := h.pc _

theorem countIo (h : Quiet s t) (d : Word) : Quiet s (countIo t d) := ((h.setHL _).setReg _ _).setFlags _

theorem afterPortIn (h : Quiet s t) (p : Byte) : Quiet s (afterPortIn t p) :=
  ⟨h.1, h.2, h.3, h.4, h.5, h.6, h.7, h.8, h.9, h.10, h.11, fun e => by
    show (if p = 0x68 then t.inq.drop 1 else t.inq) = []
    rw [h.12 e]; split <;> exact Eq.refl _⟩

theorem blockIn (h : Quiet s t) (d : Word) : Quiet s (blockIn t d) := ((h.afterPortIn _).store _ _).countIo _

theorem ite (c : Prop) [Decidable c] {u : State} (h : Quiet s t) (h' : Quiet s u) : Quiet s (if c then t else u) := by
  split
  · exact h
  · exact h'

end Quiet

/-- An instruction that is neither an output instruction nor `HALT` completes, and leaves alone what `Quiet` says. -/
theorem exec_quiet {i : Instr} (ho : isOutput i = false) (hh : i ≠ .halt) (s : State) :
    ∃ t, exec i s = .next t ∧ Quiet s t := by
  cases i
  case outPortNA => exact absurd ho (by simp [isOutput])
  case outPortCR => exact absurd ho (by simp [isOutput])
  case outi => exact absurd ho (by simp [isOutput])
  case otir => exact absurd ho (by simp [isOutput])
  case outd => exact absurd ho (by simp [isOutput])
  case otdr => exact absurd ho (by simp [isOutput])
  case halt => exact absurd (Eq.refl _) hh
  all_goals refine ⟨_, Eq.refl _, ?_⟩
  all_goals
    repeat
      first
      | with_reducible exact Quiet.rfl
      | with_reducible apply Quiet.retire
      | with_reducible apply Quiet.setReg
      | with_reducible apply Quiet.setBC
      | with_reducible apply Quiet.setDE
      | with_reducible apply Quiet.setHL
      | with_reducible apply Quiet.setPairDD
      | with_reducible apply Quiet.setPairQQ
      | with_reducible apply Quiet.setFlags
      | with_reducible apply Quiet.store
      | with_reducible apply Quiet.store16
      | with_reducible apply Quiet.push16
      | with_reducible apply Quiet.dropTop
      | with_reducible apply Quiet.loadSpecial
      | with_reducible apply Quiet.addA
      | with_reducible apply Quiet.adcA
      | with_reducible apply Quiet.subA
      | with_reducible apply Quiet.sbcA
      | with_reducible apply Quiet.andA
      | with_reducible apply Quiet.xorA
      | with_reducible apply Quiet.orA
      | with_reducible apply Quiet.cpA
      | with_reducible apply Quiet.putReg
      | with_reducible apply Quiet.putMem
      | with_reducible apply Quiet.rotateA
      | with_reducible apply Quiet.shiftReg
      | with_reducible apply Quiet.shiftMem
      | with_reducible apply Quiet.digitRotate
      | with_reducible apply Quiet.testBit
      | with_reducible apply Quiet.jumpTo
      | with_reducible apply Quiet.jumpRelative
      | with_reducible apply Quiet.callTo
      | with_reducible apply Quiet.returnFrom
      | with_reducible apply Quiet.blockMove
      | with_reducible apply Quiet.blockCompare
      | with_reducible apply Quiet.repeatWhile
      | with_reducible apply Quiet.countIo
      | with_reducible apply Quiet.afterPortIn
      | with_reducible apply Quiet.blockIn
      | with_reducible apply Quiet.ite
      | with_reducible apply Quiet.ix
      | with_reducible apply Quiet.iy
      | with_reducible apply Quiet.sp
      | with_reducible apply Quiet.iReg
      | with_reducible apply Quiet.rReg
      | with_reducible apply Quiet.iff1
      | with_reducible apply Quiet.im
      | with_reducible apply Quiet.iffs
      | with_reducible apply Quiet.sets
      | with_reducible apply Quiet.main
      | with_reducible apply Quiet.flags
      | with_reducible apply Quiet.pc

/-- An output instruction is `PortOut` on the state its own updates leave (46 R390 item 2). -/
theorem exec_output {i : Instr} (ho : isOutput i = true) (s : State) :
    ∃ t v, exec i s = portOut s t (outputPort s i) v ∧ Quiet s t ∧ t.main.b = outputB s i ∧ t.main.c = s.main.c ∧
      t.inq = s.inq := by
  cases i
  case outPortNA n =>
    exact ⟨_, _, Eq.refl _, Quiet.rfl.retire _ _, Eq.refl _, Eq.refl _, Eq.refl _⟩
  case outPortCR src =>
    exact ⟨_, _, Eq.refl _, Quiet.rfl.retire _ _, Eq.refl _, Eq.refl _, Eq.refl _⟩
  case outi =>
    exact ⟨_, _, Eq.refl _, (Quiet.rfl.retire _ _).countIo _, Eq.refl _, Eq.refl _, Eq.refl _⟩
  case otir =>
    exact ⟨_, _, Eq.refl _, ((Quiet.rfl.retire _ _).countIo _).repeatWhile _ _, Eq.refl _, Eq.refl _, Eq.refl _⟩
  case outd =>
    exact ⟨_, _, Eq.refl _, (Quiet.rfl.retire _ _).countIo _, Eq.refl _, Eq.refl _, Eq.refl _⟩
  case otdr =>
    exact ⟨_, _, Eq.refl _, ((Quiet.rfl.retire _ _).countIo _).repeatWhile _ _, Eq.refl _, Eq.refl _, Eq.refl _⟩
  all_goals exact absurd ho Bool.false_ne_true

end Sys2Proof.Machine
end

