-- ==== Sys2Proof/Laws/PerInstr.lean ====
section
/-! SUPPORT. The family `EncodedLength`: an encoding has one to four bytes (30_encoding R120), one lemma a
constructor. -/

namespace Sys2Proof.Laws.EncodedLength

/-- The encoding of `i` has one to four bytes. -/
def Statement (i : Instr) : Prop := 1 ≤ i.length ∧ i.length ≤ 4

theorem ldRR (r : Reg8) (src : Reg8) : Statement (.ldRR r src) := ⟨of_decide_eq_true rfl, of_decide_eq_true rfl⟩
theorem ldRN (r : Reg8) (n : Byte) : Statement (.ldRN r n) := ⟨of_decide_eq_true rfl, of_decide_eq_true rfl⟩
theorem ldRAtHL (r : Reg8) : Statement (.ldRAtHL r) := ⟨of_decide_eq_true rfl, of_decide_eq_true rfl⟩
theorem ldRAtIX (r : Reg8) (d : Byte) : Statement (.ldRAtIX r d) := ⟨of_decide_eq_true rfl, of_decide_eq_true rfl⟩
theorem ldRAtIY (r : Reg8) (d : Byte) : Statement (.ldRAtIY r d) := ⟨of_decide_eq_true rfl, of_decide_eq_true rfl⟩
theorem ldAtHLR (src : Reg8) : Statement (.ldAtHLR src) := ⟨of_decide_eq_true rfl, of_decide_eq_true rfl⟩
theorem ldAtIXR (d : Byte) (src : Reg8) : Statement (.ldAtIXR d src) := ⟨of_decide_eq_true rfl, of_decide_eq_true rfl⟩
theorem ldAtIYR (d : Byte) (src : Reg8) : Statement (.ldAtIYR d src) := ⟨of_decide_eq_true rfl, of_decide_eq_true rfl⟩
theorem ldAtHLN (n : Byte) : Statement (.ldAtHLN n) := ⟨of_decide_eq_true rfl, of_decide_eq_true rfl⟩
theorem ldAtIXN (d : Byte) (n : Byte) : Statement (.ldAtIXN d n) := ⟨of_decide_eq_true rfl, of_decide_eq_true rfl⟩
theorem ldAtIYN (d : Byte) (n : Byte) : Statement (.ldAtIYN d n) := ⟨of_decide_eq_true rfl, of_decide_eq_true rfl⟩
theorem ldAAtBC : Statement .ldAAtBC := ⟨of_decide_eq_true rfl, of_decide_eq_true rfl⟩
theorem ldAAtDE : Statement .ldAAtDE := ⟨of_decide_eq_true rfl, of_decide_eq_true rfl⟩
theorem ldAAtNN (nn : Word) : Statement (.ldAAtNN nn) := ⟨of_decide_eq_true rfl, of_decide_eq_true rfl⟩
theorem ldAtBCA : Statement .ldAtBCA := ⟨of_decide_eq_true rfl, of_decide_eq_true rfl⟩
theorem ldAtDEA : Statement .ldAtDEA := ⟨of_decide_eq_true rfl, of_decide_eq_true rfl⟩
theorem ldAtNNA (nn : Word) : Statement (.ldAtNNA nn) := ⟨of_decide_eq_true rfl, of_decide_eq_true rfl⟩
theorem ldAI : Statement .ldAI := ⟨of_decide_eq_true rfl, of_decide_eq_true rfl⟩
theorem ldAR : Statement .ldAR := ⟨of_decide_eq_true rfl, of_decide_eq_true rfl⟩
theorem ldIA : Statement .ldIA := ⟨of_decide_eq_true rfl, of_decide_eq_true rfl⟩
theorem ldRA : Statement .ldRA := ⟨of_decide_eq_true rfl, of_decide_eq_true rfl⟩
theorem ldDDNN (dd : PairDD) (nn : Word) : Statement (.ldDDNN dd nn) := ⟨of_decide_eq_true rfl, of_decide_eq_true rfl⟩
theorem ldIXNN (nn : Word) : Statement (.ldIXNN nn) := ⟨of_decide_eq_true rfl, of_decide_eq_true rfl⟩
theorem ldIYNN (nn : Word) : Statement (.ldIYNN nn) := ⟨of_decide_eq_true rfl, of_decide_eq_true rfl⟩
theorem ldHLAtNN (nn : Word) : Statement (.ldHLAtNN nn) := ⟨of_decide_eq_true rfl, of_decide_eq_true rfl⟩
theorem ldDDAtNN (dd : PairDD) (nn : Word) : Statement (.ldDDAtNN dd nn) := ⟨of_decide_eq_true rfl, of_decide_eq_true rfl⟩
theorem ldIXAtNN (nn : Word) : Statement (.ldIXAtNN nn) := ⟨of_decide_eq_true rfl, of_decide_eq_true rfl⟩
theorem ldIYAtNN (nn : Word) : Statement (.ldIYAtNN nn) := ⟨of_decide_eq_true rfl, of_decide_eq_true rfl⟩
theorem ldAtNNHL (nn : Word) : Statement (.ldAtNNHL nn) := ⟨of_decide_eq_true rfl, of_decide_eq_true rfl⟩
theorem ldAtNNDD (nn : Word) (dd : PairDD) : Statement (.ldAtNNDD nn dd) := ⟨of_decide_eq_true rfl, of_decide_eq_true rfl⟩
theorem ldAtNNIX (nn : Word) : Statement (.ldAtNNIX nn) := ⟨of_decide_eq_true rfl, of_decide_eq_true rfl⟩
theorem ldAtNNIY (nn : Word) : Statement (.ldAtNNIY nn) := ⟨of_decide_eq_true rfl, of_decide_eq_true rfl⟩
theorem ldSPHL : Statement .ldSPHL := ⟨of_decide_eq_true rfl, of_decide_eq_true rfl⟩
theorem ldSPIX : Statement .ldSPIX := ⟨of_decide_eq_true rfl, of_decide_eq_true rfl⟩
theorem ldSPIY : Statement .ldSPIY := ⟨of_decide_eq_true rfl, of_decide_eq_true rfl⟩
theorem pushQQ (qq : PairQQ) : Statement (.pushQQ qq) := ⟨of_decide_eq_true rfl, of_decide_eq_true rfl⟩
theorem pushIX : Statement .pushIX := ⟨of_decide_eq_true rfl, of_decide_eq_true rfl⟩
theorem pushIY : Statement .pushIY := ⟨of_decide_eq_true rfl, of_decide_eq_true rfl⟩
theorem popQQ (qq : PairQQ) : Statement (.popQQ qq) := ⟨of_decide_eq_true rfl, of_decide_eq_true rfl⟩
theorem popIX : Statement .popIX := ⟨of_decide_eq_true rfl, of_decide_eq_true rfl⟩
theorem popIY : Statement .popIY := ⟨of_decide_eq_true rfl, of_decide_eq_true rfl⟩
theorem addR (src : Reg8) : Statement (.addR src) := ⟨of_decide_eq_true rfl, of_decide_eq_true rfl⟩
theorem addN (n : Byte) : Statement (.addN n) := ⟨of_decide_eq_true rfl, of_decide_eq_true rfl⟩
theorem addAtHL : Statement .addAtHL := ⟨of_decide_eq_true rfl, of_decide_eq_true rfl⟩
theorem addAtIX (d : Byte) : Statement (.addAtIX d) := ⟨of_decide_eq_true rfl, of_decide_eq_true rfl⟩
theorem addAtIY (d : Byte) : Statement (.addAtIY d) := ⟨of_decide_eq_true rfl, of_decide_eq_true rfl⟩
theorem adcR (src : Reg8) : Statement (.adcR src) := ⟨of_decide_eq_true rfl, of_decide_eq_true rfl⟩
theorem adcN (n : Byte) : Statement (.adcN n) := ⟨of_decide_eq_true rfl, of_decide_eq_true rfl⟩
theorem adcAtHL : Statement .adcAtHL := ⟨of_decide_eq_true rfl, of_decide_eq_true rfl⟩
theorem adcAtIX (d : Byte) : Statement (.adcAtIX d) := ⟨of_decide_eq_true rfl, of_decide_eq_true rfl⟩
theorem adcAtIY (d : Byte) : Statement (.adcAtIY d) := ⟨of_decide_eq_true rfl, of_decide_eq_true rfl⟩
theorem subR (src : Reg8) : Statement (.subR src) := ⟨of_decide_eq_true rfl, of_decide_eq_true rfl⟩
theorem subN (n : Byte) : Statement (.subN n) := ⟨of_decide_eq_true rfl, of_decide_eq_true rfl⟩
theorem subAtHL : Statement .subAtHL := ⟨of_decide_eq_true rfl, of_decide_eq_true rfl⟩
theorem subAtIX (d : Byte) : Statement (.subAtIX d) := ⟨of_decide_eq_true rfl, of_decide_eq_true rfl⟩
theorem subAtIY (d : Byte) : Statement (.subAtIY d) := ⟨of_decide_eq_true rfl, of_decide_eq_true rfl⟩
theorem sbcR (src : Reg8) : Statement (.sbcR src) := ⟨of_decide_eq_true rfl, of_decide_eq_true rfl⟩
theorem sbcN (n : Byte) : Statement (.sbcN n) := ⟨of_decide_eq_true rfl, of_decide_eq_true rfl⟩
theorem sbcAtHL : Statement .sbcAtHL := ⟨of_decide_eq_true rfl, of_decide_eq_true rfl⟩
theorem sbcAtIX (d : Byte) : Statement (.sbcAtIX d) := ⟨of_decide_eq_true rfl, of_decide_eq_true rfl⟩
theorem sbcAtIY (d : Byte) : Statement (.sbcAtIY d) := ⟨of_decide_eq_true rfl, of_decide_eq_true rfl⟩
theorem andR (src : Reg8) : Statement (.andR src) := ⟨of_decide_eq_true rfl, of_decide_eq_true rfl⟩
theorem andN (n : Byte) : Statement (.andN n) := ⟨of_decide_eq_true rfl, of_decide_eq_true rfl⟩
theorem andAtHL : Statement .andAtHL := ⟨of_decide_eq_true rfl, of_decide_eq_true rfl⟩
theorem andAtIX (d : Byte) : Statement (.andAtIX d) := ⟨of_decide_eq_true rfl, of_decide_eq_true rfl⟩
theorem andAtIY (d : Byte) : Statement (.andAtIY d) := ⟨of_decide_eq_true rfl, of_decide_eq_true rfl⟩
theorem xorR (src : Reg8) : Statement (.xorR src) := ⟨of_decide_eq_true rfl, of_decide_eq_true rfl⟩
theorem xorN (n : Byte) : Statement (.xorN n) := ⟨of_decide_eq_true rfl, of_decide_eq_true rfl⟩
theorem xorAtHL : Statement .xorAtHL := ⟨of_decide_eq_true rfl, of_decide_eq_true rfl⟩
theorem xorAtIX (d : Byte) : Statement (.xorAtIX d) := ⟨of_decide_eq_true rfl, of_decide_eq_true rfl⟩
theorem xorAtIY (d : Byte) : Statement (.xorAtIY d) := ⟨of_decide_eq_true rfl, of_decide_eq_true rfl⟩
theorem orR (src : Reg8) : Statement (.orR src) := ⟨of_decide_eq_true rfl, of_decide_eq_true rfl⟩
theorem orN (n : Byte) : Statement (.orN n) := ⟨of_decide_eq_true rfl, of_decide_eq_true rfl⟩
theorem orAtHL : Statement .orAtHL := ⟨of_decide_eq_true rfl, of_decide_eq_true rfl⟩
theorem orAtIX (d : Byte) : Statement (.orAtIX d) := ⟨of_decide_eq_true rfl, of_decide_eq_true rfl⟩
theorem orAtIY (d : Byte) : Statement (.orAtIY d) := ⟨of_decide_eq_true rfl, of_decide_eq_true rfl⟩
theorem cpR (src : Reg8) : Statement (.cpR src) := ⟨of_decide_eq_true rfl, of_decide_eq_true rfl⟩
theorem cpN (n : Byte) : Statement (.cpN n) := ⟨of_decide_eq_true rfl, of_decide_eq_true rfl⟩
theorem cpAtHL : Statement .cpAtHL := ⟨of_decide_eq_true rfl, of_decide_eq_true rfl⟩
theorem cpAtIX (d : Byte) : Statement (.cpAtIX d) := ⟨of_decide_eq_true rfl, of_decide_eq_true rfl⟩
theorem cpAtIY (d : Byte) : Statement (.cpAtIY d) := ⟨of_decide_eq_true rfl, of_decide_eq_true rfl⟩
theorem incR (r : Reg8) : Statement (.incR r) := ⟨of_decide_eq_true rfl, of_decide_eq_true rfl⟩
theorem incAtHL : Statement .incAtHL := ⟨of_decide_eq_true rfl, of_decide_eq_true rfl⟩
theorem incAtIX (d : Byte) : Statement (.incAtIX d) := ⟨of_decide_eq_true rfl, of_decide_eq_true rfl⟩
theorem incAtIY (d : Byte) : Statement (.incAtIY d) := ⟨of_decide_eq_true rfl, of_decide_eq_true rfl⟩
theorem decR (r : Reg8) : Statement (.decR r) := ⟨of_decide_eq_true rfl, of_decide_eq_true rfl⟩
theorem decAtHL : Statement .decAtHL := ⟨of_decide_eq_true rfl, of_decide_eq_true rfl⟩
theorem decAtIX (d : Byte) : Statement (.decAtIX d) := ⟨of_decide_eq_true rfl, of_decide_eq_true rfl⟩
theorem decAtIY (d : Byte) : Statement (.decAtIY d) := ⟨of_decide_eq_true rfl, of_decide_eq_true rfl⟩
theorem daa : Statement .daa := ⟨of_decide_eq_true rfl, of_decide_eq_true rfl⟩
theorem cpl : Statement .cpl := ⟨of_decide_eq_true rfl, of_decide_eq_true rfl⟩
theorem neg : Statement .neg := ⟨of_decide_eq_true rfl, of_decide_eq_true rfl⟩
theorem ccf : Statement .ccf := ⟨of_decide_eq_true rfl, of_decide_eq_true rfl⟩
theorem scf : Statement .scf := ⟨of_decide_eq_true rfl, of_decide_eq_true rfl⟩
theorem addHLSS (ss : PairDD) : Statement (.addHLSS ss) := ⟨of_decide_eq_true rfl, of_decide_eq_true rfl⟩
theorem adcHLSS (ss : PairDD) : Statement (.adcHLSS ss) := ⟨of_decide_eq_true rfl, of_decide_eq_true rfl⟩
theorem sbcHLSS (ss : PairDD) : Statement (.sbcHLSS ss) := ⟨of_decide_eq_true rfl, of_decide_eq_true rfl⟩
theorem addIXPP (pp : PairPP) : Statement (.addIXPP pp) := ⟨of_decide_eq_true rfl, of_decide_eq_true rfl⟩
theorem addIYRR (rr : PairRR) : Statement (.addIYRR rr) := ⟨of_decide_eq_true rfl, of_decide_eq_true rfl⟩
theorem incSS (ss : PairDD) : Statement (.incSS ss) := ⟨of_decide_eq_true rfl, of_decide_eq_true rfl⟩
theorem incIX : Statement .incIX := ⟨of_decide_eq_true rfl, of_decide_eq_true rfl⟩
theorem incIY : Statement .incIY := ⟨of_decide_eq_true rfl, of_decide_eq_true rfl⟩
theorem decSS (ss : PairDD) : Statement (.decSS ss) := ⟨of_decide_eq_true rfl, of_decide_eq_true rfl⟩
theorem decIX : Statement .decIX := ⟨of_decide_eq_true rfl, of_decide_eq_true rfl⟩
theorem decIY : Statement .decIY := ⟨of_decide_eq_true rfl, of_decide_eq_true rfl⟩
theorem rlca : Statement .rlca := ⟨of_decide_eq_true rfl, of_decide_eq_true rfl⟩
theorem rla : Statement .rla := ⟨of_decide_eq_true rfl, of_decide_eq_true rfl⟩
theorem rrca : Statement .rrca := ⟨of_decide_eq_true rfl, of_decide_eq_true rfl⟩
theorem rra : Statement .rra := ⟨of_decide_eq_true rfl, of_decide_eq_true rfl⟩
theorem rlcR (r : Reg8) : Statement (.rlcR r) := ⟨of_decide_eq_true rfl, of_decide_eq_true rfl⟩
theorem rlcAtHL : Statement .rlcAtHL := ⟨of_decide_eq_true rfl, of_decide_eq_true rfl⟩
theorem rlcAtIX (d : Byte) : Statement (.rlcAtIX d) := ⟨of_decide_eq_true rfl, of_decide_eq_true rfl⟩
theorem rlcAtIY (d : Byte) : Statement (.rlcAtIY d) := ⟨of_decide_eq_true rfl, of_decide_eq_true rfl⟩
theorem rrcR (r : Reg8) : Statement (.rrcR r) := ⟨of_decide_eq_true rfl, of_decide_eq_true rfl⟩
theorem rrcAtHL : Statement .rrcAtHL := ⟨of_decide_eq_true rfl, of_decide_eq_true rfl⟩
theorem rrcAtIX (d : Byte) : Statement (.rrcAtIX d) := ⟨of_decide_eq_true rfl, of_decide_eq_true rfl⟩
theorem rrcAtIY (d : Byte) : Statement (.rrcAtIY d) := ⟨of_decide_eq_true rfl, of_decide_eq_true rfl⟩
theorem rlR (r : Reg8) : Statement (.rlR r) := ⟨of_decide_eq_true rfl, of_decide_eq_true rfl⟩
theorem rlAtHL : Statement .rlAtHL := ⟨of_decide_eq_true rfl, of_decide_eq_true rfl⟩
theorem rlAtIX (d : Byte) : Statement (.rlAtIX d) := ⟨of_decide_eq_true rfl, of_decide_eq_true rfl⟩
theorem rlAtIY (d : Byte) : Statement (.rlAtIY d) := ⟨of_decide_eq_true rfl, of_decide_eq_true rfl⟩
theorem rrR (r : Reg8) : Statement (.rrR r) := ⟨of_decide_eq_true rfl, of_decide_eq_true rfl⟩
theorem rrAtHL : Statement .rrAtHL := ⟨of_decide_eq_true rfl, of_decide_eq_true rfl⟩
theorem rrAtIX (d : Byte) : Statement (.rrAtIX d) := ⟨of_decide_eq_true rfl, of_decide_eq_true rfl⟩
theorem rrAtIY (d : Byte) : Statement (.rrAtIY d) := ⟨of_decide_eq_true rfl, of_decide_eq_true rfl⟩
theorem slaR (r : Reg8) : Statement (.slaR r) := ⟨of_decide_eq_true rfl, of_decide_eq_true rfl⟩
theorem slaAtHL : Statement .slaAtHL := ⟨of_decide_eq_true rfl, of_decide_eq_true rfl⟩
theorem slaAtIX (d : Byte) : Statement (.slaAtIX d) := ⟨of_decide_eq_true rfl, of_decide_eq_true rfl⟩
theorem slaAtIY (d : Byte) : Statement (.slaAtIY d) := ⟨of_decide_eq_true rfl, of_decide_eq_true rfl⟩
theorem sraR (r : Reg8) : Statement (.sraR r) := ⟨of_decide_eq_true rfl, of_decide_eq_true rfl⟩
theorem sraAtHL : Statement .sraAtHL := ⟨of_decide_eq_true rfl, of_decide_eq_true rfl⟩
theorem sraAtIX (d : Byte) : Statement (.sraAtIX d) := ⟨of_decide_eq_true rfl, of_decide_eq_true rfl⟩
theorem sraAtIY (d : Byte) : Statement (.sraAtIY d) := ⟨of_decide_eq_true rfl, of_decide_eq_true rfl⟩
theorem srlR (r : Reg8) : Statement (.srlR r) := ⟨of_decide_eq_true rfl, of_decide_eq_true rfl⟩
theorem srlAtHL : Statement .srlAtHL := ⟨of_decide_eq_true rfl, of_decide_eq_true rfl⟩
theorem srlAtIX (d : Byte) : Statement (.srlAtIX d) := ⟨of_decide_eq_true rfl, of_decide_eq_true rfl⟩
theorem srlAtIY (d : Byte) : Statement (.srlAtIY d) := ⟨of_decide_eq_true rfl, of_decide_eq_true rfl⟩
theorem rld : Statement .rld := ⟨of_decide_eq_true rfl, of_decide_eq_true rfl⟩
theorem rrd : Statement .rrd := ⟨of_decide_eq_true rfl, of_decide_eq_true rfl⟩
theorem bitR (b : Nat) (r : Reg8) : Statement (.bitR b r) := ⟨of_decide_eq_true rfl, of_decide_eq_true rfl⟩
theorem bitAtHL (b : Nat) : Statement (.bitAtHL b) := ⟨of_decide_eq_true rfl, of_decide_eq_true rfl⟩
theorem bitAtIX (b : Nat) (d : Byte) : Statement (.bitAtIX b d) := ⟨of_decide_eq_true rfl, of_decide_eq_true rfl⟩
theorem bitAtIY (b : Nat) (d : Byte) : Statement (.bitAtIY b d) := ⟨of_decide_eq_true rfl, of_decide_eq_true rfl⟩
theorem setR (b : Nat) (r : Reg8) : Statement (.setR b r) := ⟨of_decide_eq_true rfl, of_decide_eq_true rfl⟩
theorem setAtHL (b : Nat) : Statement (.setAtHL b) := ⟨of_decide_eq_true rfl, of_decide_eq_true rfl⟩
theorem setAtIX (b : Nat) (d : Byte) : Statement (.setAtIX b d) := ⟨of_decide_eq_true rfl, of_decide_eq_true rfl⟩
theorem setAtIY (b : Nat) (d : Byte) : Statement (.setAtIY b d) := ⟨of_decide_eq_true rfl, of_decide_eq_true rfl⟩
theorem resR (b : Nat) (r : Reg8) : Statement (.resR b r) := ⟨of_decide_eq_true rfl, of_decide_eq_true rfl⟩
theorem resAtHL (b : Nat) : Statement (.resAtHL b) := ⟨of_decide_eq_true rfl, of_decide_eq_true rfl⟩
theorem resAtIX (b : Nat) (d : Byte) : Statement (.resAtIX b d) := ⟨of_decide_eq_true rfl, of_decide_eq_true rfl⟩
theorem resAtIY (b : Nat) (d : Byte) : Statement (.resAtIY b d) := ⟨of_decide_eq_true rfl, of_decide_eq_true rfl⟩
theorem jpNN (nn : Word) : Statement (.jpNN nn) := ⟨of_decide_eq_true rfl, of_decide_eq_true rfl⟩
theorem jpCcNN (cc : Cond) (nn : Word) : Statement (.jpCcNN cc nn) := ⟨of_decide_eq_true rfl, of_decide_eq_true rfl⟩
theorem jrE (e : Byte) : Statement (.jrE e) := ⟨of_decide_eq_true rfl, of_decide_eq_true rfl⟩
theorem jrCE (e : Byte) : Statement (.jrCE e) := ⟨of_decide_eq_true rfl, of_decide_eq_true rfl⟩
theorem jrNcE (e : Byte) : Statement (.jrNcE e) := ⟨of_decide_eq_true rfl, of_decide_eq_true rfl⟩
theorem jrZE (e : Byte) : Statement (.jrZE e) := ⟨of_decide_eq_true rfl, of_decide_eq_true rfl⟩
theorem jrNzE (e : Byte) : Statement (.jrNzE e) := ⟨of_decide_eq_true rfl, of_decide_eq_true rfl⟩
theorem jpHL : Statement .jpHL := ⟨of_decide_eq_true rfl, of_decide_eq_true rfl⟩
theorem jpIX : Statement .jpIX := ⟨of_decide_eq_true rfl, of_decide_eq_true rfl⟩
theorem jpIY : Statement .jpIY := ⟨of_decide_eq_true rfl, of_decide_eq_true rfl⟩
theorem djnzE (e : Byte) : Statement (.djnzE e) := ⟨of_decide_eq_true rfl, of_decide_eq_true rfl⟩
theorem callNN (nn : Word) : Statement (.callNN nn) := ⟨of_decide_eq_true rfl, of_decide_eq_true rfl⟩
theorem callCcNN (cc : Cond) (nn : Word) : Statement (.callCcNN cc nn) := ⟨of_decide_eq_true rfl, of_decide_eq_true rfl⟩
theorem ret : Statement .ret := ⟨of_decide_eq_true rfl, of_decide_eq_true rfl⟩
theorem retCc (cc : Cond) : Statement (.retCc cc) := ⟨of_decide_eq_true rfl, of_decide_eq_true rfl⟩
theorem reti : Statement .reti := ⟨of_decide_eq_true rfl, of_decide_eq_true rfl⟩
theorem retn : Statement .retn := ⟨of_decide_eq_true rfl, of_decide_eq_true rfl⟩
theorem rst (t : Nat) : Statement (.rst t) := ⟨of_decide_eq_true rfl, of_decide_eq_true rfl⟩
theorem inAPortN (n : Byte) : Statement (.inAPortN n) := ⟨of_decide_eq_true rfl, of_decide_eq_true rfl⟩
theorem inRPortC (r : Reg8) : Statement (.inRPortC r) := ⟨of_decide_eq_true rfl, of_decide_eq_true rfl⟩
theorem ini : Statement .ini := ⟨of_decide_eq_true rfl, of_decide_eq_true rfl⟩
theorem inir : Statement .inir := ⟨of_decide_eq_true rfl, of_decide_eq_true rfl⟩
theorem ind : Statement .ind := ⟨of_decide_eq_true rfl, of_decide_eq_true rfl⟩
theorem indr : Statement .indr := ⟨of_decide_eq_true rfl, of_decide_eq_true rfl⟩
theorem outPortNA (n : Byte) : Statement (.outPortNA n) := ⟨of_decide_eq_true rfl, of_decide_eq_true rfl⟩
theorem outPortCR (src : Reg8) : Statement (.outPortCR src) := ⟨of_decide_eq_true rfl, of_decide_eq_true rfl⟩
theorem outi : Statement .outi := ⟨of_decide_eq_true rfl, of_decide_eq_true rfl⟩
theorem otir : Statement .otir := ⟨of_decide_eq_true rfl, of_decide_eq_true rfl⟩
theorem outd : Statement .outd := ⟨of_decide_eq_true rfl, of_decide_eq_true rfl⟩
theorem otdr : Statement .otdr := ⟨of_decide_eq_true rfl, of_decide_eq_true rfl⟩
theorem ldi : Statement .ldi := ⟨of_decide_eq_true rfl, of_decide_eq_true rfl⟩
theorem ldir : Statement .ldir := ⟨of_decide_eq_true rfl, of_decide_eq_true rfl⟩
theorem ldd : Statement .ldd := ⟨of_decide_eq_true rfl, of_decide_eq_true rfl⟩
theorem lddr : Statement .lddr := ⟨of_decide_eq_true rfl, of_decide_eq_true rfl⟩
theorem cpi : Statement .cpi := ⟨of_decide_eq_true rfl, of_decide_eq_true rfl⟩
theorem cpir : Statement .cpir := ⟨of_decide_eq_true rfl, of_decide_eq_true rfl⟩
theorem cpd : Statement .cpd := ⟨of_decide_eq_true rfl, of_decide_eq_true rfl⟩
theorem cpdr : Statement .cpdr := ⟨of_decide_eq_true rfl, of_decide_eq_true rfl⟩
theorem exDEHL : Statement .exDEHL := ⟨of_decide_eq_true rfl, of_decide_eq_true rfl⟩
theorem exAFAF : Statement .exAFAF := ⟨of_decide_eq_true rfl, of_decide_eq_true rfl⟩
theorem exx : Statement .exx := ⟨of_decide_eq_true rfl, of_decide_eq_true rfl⟩
theorem exAtSPHL : Statement .exAtSPHL := ⟨of_decide_eq_true rfl, of_decide_eq_true rfl⟩
theorem exAtSPIX : Statement .exAtSPIX := ⟨of_decide_eq_true rfl, of_decide_eq_true rfl⟩
theorem exAtSPIY : Statement .exAtSPIY := ⟨of_decide_eq_true rfl, of_decide_eq_true rfl⟩
theorem nop : Statement .nop := ⟨of_decide_eq_true rfl, of_decide_eq_true rfl⟩
theorem halt : Statement .halt := ⟨of_decide_eq_true rfl, of_decide_eq_true rfl⟩
theorem di : Statement .di := ⟨of_decide_eq_true rfl, of_decide_eq_true rfl⟩
theorem ei : Statement .ei := ⟨of_decide_eq_true rfl, of_decide_eq_true rfl⟩
theorem im0 : Statement .im0 := ⟨of_decide_eq_true rfl, of_decide_eq_true rfl⟩
theorem im1 : Statement .im1 := ⟨of_decide_eq_true rfl, of_decide_eq_true rfl⟩
theorem im2 : Statement .im2 := ⟨of_decide_eq_true rfl, of_decide_eq_true rfl⟩

end Sys2Proof.Laws.EncodedLength
end

