-- ==== Sys2Proof/Laws/Plain.lean ====
section
/-! SUPPORT. What an instruction outside the few that write the special registers leaves alone, beside the fetch's own
changes: one lemma a shared operation, then one for `exec`. -/

namespace Sys2Proof.Machine

/-- `t` agrees with `s` in the interrupt state, `I`, `R`, `ICOUNT` and the shadow set. -/
structure Plain (s t : State) : Prop where
  iff1   : t.iff1 = s.iff1
  iff2   : t.iff2 = s.iff2
  im     : t.im = s.im
  iReg   : t.iReg = s.iReg
  rReg   : t.rReg = s.rReg
  icount : t.icount = s.icount
  shadow : t.shadow = s.shadow

namespace Plain

variable {s t : State}

theorem rfl : Plain s s := ⟨Eq.refl _, Eq.refl _, Eq.refl _, Eq.refl _, Eq.refl _, Eq.refl _, Eq.refl _⟩

/-! ### Updates of registers and counters -/

theorem main (h : Plain s t) (x : RegSet) : Plain s { t with main := x } := ⟨h.1, h.2, h.3, h.4, h.5, h.6, h.7⟩

theorem flags (h : Plain s t) (x : RegSet) (n : Nat) : Plain s { t with main := x, draws := n } := ⟨h.1, h.2, h.3, h.4, h.5, h.6, h.7⟩

theorem ix (h : Plain s t) (v : Word) : Plain s { t with ix := v } := ⟨h.1, h.2, h.3, h.4, h.5, h.6, h.7⟩

theorem iy (h : Plain s t) (v : Word) : Plain s { t with iy := v } := ⟨h.1, h.2, h.3, h.4, h.5, h.6, h.7⟩

theorem sp (h : Plain s t) (v : Word) : Plain s { t with sp := v } := ⟨h.1, h.2, h.3, h.4, h.5, h.6, h.7⟩

theorem pc (h : Plain s t) (v : Word) : Plain s { t with pc := v } := ⟨h.1, h.2, h.3, h.4, h.5, h.6, h.7⟩

theorem setReg (h : Plain s t) (r : Reg8) (v : Byte) : Plain s (t.setReg r v) := h.main _

theorem setBC (h : Plain s t) (v : Word) : Plain s (t.setBC v) := h.main _

theorem setDE (h : Plain s t) (v : Word) : Plain s (t.setDE v) := h.main _

theorem setHL (h : Plain s t) (v : Word) : Plain s (t.setHL v) := h.main _

theorem setPairDD (h : Plain s t) (dd : PairDD) (v : Word) : Plain s (t.setPairDD dd v) := by
  cases dd
  · exact h.main _
  · exact h.main _
  · exact h.main _
  · exact h.sp _

theorem setPairQQ (h : Plain s t) (qq : PairQQ) (v : Word) : Plain s (t.setPairQQ qq v) := by
  cases qq <;> exact h.main _

theorem setFlags (h : Plain s t) (f : DocFlags) : Plain s (t.setFlags f) := h.flags _ _

/-! ### Memory and the stack -/

theorem store (h : Plain s t) (a : Word) (v : Byte) : Plain s (t.store a v) := ⟨h.1, h.2, h.3, h.4, h.5, h.6, h.7⟩

theorem store16 (h : Plain s t) (a v : Word) : Plain s (t.store16 a v) := (h.store _ _).store _ _

theorem push16 (h : Plain s t) (v : Word) : Plain s (t.push16 v) := ((h.store _ _).store _ _).sp _

theorem dropTop (h : Plain s t) : Plain s t.dropTop := h.sp _

/-! ### Shared operations of the families -/

theorem loadSpecial (h : Plain s t) (v : Byte) : Plain s (loadSpecial t v) := (h.setReg _ _).setFlags _

theorem addA (h : Plain s t) (v : Byte) : Plain s (addA t v) := (h.setReg _ _).setFlags _

theorem adcA (h : Plain s t) (v : Byte) : Plain s (adcA t v) := (h.setReg _ _).setFlags _

theorem subA (h : Plain s t) (v : Byte) : Plain s (subA t v) := (h.setReg _ _).setFlags _

theorem sbcA (h : Plain s t) (v : Byte) : Plain s (sbcA t v) := (h.setReg _ _).setFlags _

theorem andA (h : Plain s t) (v : Byte) : Plain s (andA t v) := (h.setReg _ _).setFlags _

theorem xorA (h : Plain s t) (v : Byte) : Plain s (xorA t v) := (h.setReg _ _).setFlags _

theorem orA (h : Plain s t) (v : Byte) : Plain s (orA t v) := (h.setReg _ _).setFlags _

theorem cpA (h : Plain s t) (v : Byte) : Plain s (cpA t v) := h.setFlags _

theorem putReg (h : Plain s t) (r : Reg8) (x : Alu8) : Plain s (putReg t r x) := (h.setReg _ _).setFlags _

theorem putMem (h : Plain s t) (a : Word) (x : Alu8) : Plain s (putMem t a x) := (h.store _ _).setFlags _

theorem rotateA (h : Plain s t) (x : Shift8) : Plain s (rotateA t x) := (h.setReg _ _).setFlags _

theorem shiftReg (h : Plain s t) (r : Reg8) (x : Shift8) : Plain s (shiftReg t r x) := (h.setReg _ _).setFlags _

theorem shiftMem (h : Plain s t) (a : Word) (x : Shift8) : Plain s (shiftMem t a x) := (h.store _ _).setFlags _

theorem digitRotate (h : Plain s t) (a : Word) (m acc : Byte) : Plain s (digitRotate t a m acc) :=
  ((h.store _ _).setReg _ _).setFlags _

theorem testBit (h : Plain s t) (b : Nat) (v : Byte) : Plain s (testBit t b v) := h.setFlags _

theorem jumpTo (h : Plain s t) (a : Word) : Plain s (jumpTo t a) := h.pc _

theorem jumpRelative (h : Plain s t) (e : Byte) : Plain s (jumpRelative t e) := h.pc _

theorem callTo (h : Plain s t) (a : Word) : Plain s (callTo t a) := (h.push16 _).pc _

theorem returnFrom (h : Plain s t) : Plain s (returnFrom t) := h.dropTop.pc _

theorem blockMove (h : Plain s t) (d : Word) : Plain s (blockMove t d) :=
  ((((h.store _ _).setHL _).setDE _).setBC _).setFlags _

theorem blockCompare (h : Plain s t) (d : Word) : Plain s (blockCompare t d) := ((h.setHL _).setBC _).setFlags _

theorem repeatWhile (h : Plain s t) (again : Bool) (pc0 : Word) : Plain s (repeatWhile again pc0 t) := h.pc _

theorem countIo (h : Plain s t) (d : Word) : Plain s (countIo t d) := ((h.setHL _).setReg _ _).setFlags _

theorem afterPortIn (h : Plain s t) (p : Byte) : Plain s (afterPortIn t p) := ⟨h.1, h.2, h.3, h.4, h.5, h.6, h.7⟩

theorem blockIn (h : Plain s t) (d : Word) : Plain s (blockIn t d) := ((h.afterPortIn _).store _ _).countIo _

theorem ite (c : Prop) [Decidable c] {u : State} (h : Plain s t) (h' : Plain s u) : Plain s (if c then t else u) := by
  split
  · exact h
  · exact h'

end Plain

/-- The instructions that write the interrupt state, `I`, `R` or the shadow set. -/
def writesSpecial : Instr → Bool
  | .di | .ei | .retn | .im0 | .im1 | .im2 | .ldIA | .ldRA | .exAFAF | .exx => true
  | _ => false

/-- An instruction outside these, and no output instruction, leaves alone what `Plain` says, once fetched. -/
theorem exec_plain {i : Instr} (ho : isOutput i = false) (hw : writesSpecial i = false) (s : State) :
    ∃ t len m1, exec i s = .next t ∧ Plain (s.retire len m1) t := by
  cases i
  case ldIA => exact absurd hw (by simp [writesSpecial])
  case ldRA => exact absurd hw (by simp [writesSpecial])
  case retn => exact absurd hw (by simp [writesSpecial])
  case outPortNA => exact absurd ho (by simp [isOutput])
  case outPortCR => exact absurd ho (by simp [isOutput])
  case outi => exact absurd ho (by simp [isOutput])
  case otir => exact absurd ho (by simp [isOutput])
  case outd => exact absurd ho (by simp [isOutput])
  case otdr => exact absurd ho (by simp [isOutput])
  case exAFAF => exact absurd hw (by simp [writesSpecial])
  case exx => exact absurd hw (by simp [writesSpecial])
  case halt => exact ⟨_, 1, 1, Eq.refl _, ⟨Eq.refl _, Eq.refl _, Eq.refl _, Eq.refl _, Eq.refl _, Eq.refl _, Eq.refl _⟩⟩
  case di => exact absurd hw (by simp [writesSpecial])
  case ei => exact absurd hw (by simp [writesSpecial])
  case im0 => exact absurd hw (by simp [writesSpecial])
  case im1 => exact absurd hw (by simp [writesSpecial])
  case im2 => exact absurd hw (by simp [writesSpecial])
  all_goals refine ⟨_, ?_, ?_, Eq.refl _, ?_⟩
  all_goals try
    repeat
      first
      | with_reducible exact Plain.rfl
      | with_reducible apply Plain.setReg
      | with_reducible apply Plain.setBC
      | with_reducible apply Plain.setDE
      | with_reducible apply Plain.setHL
      | with_reducible apply Plain.setPairDD
      | with_reducible apply Plain.setPairQQ
      | with_reducible apply Plain.setFlags
      | with_reducible apply Plain.store
      | with_reducible apply Plain.store16
      | with_reducible apply Plain.push16
      | with_reducible apply Plain.dropTop
      | with_reducible apply Plain.loadSpecial
      | with_reducible apply Plain.addA
      | with_reducible apply Plain.adcA
      | with_reducible apply Plain.subA
      | with_reducible apply Plain.sbcA
      | with_reducible apply Plain.andA
      | with_reducible apply Plain.xorA
      | with_reducible apply Plain.orA
      | with_reducible apply Plain.cpA
      | with_reducible apply Plain.putReg
      | with_reducible apply Plain.putMem
      | with_reducible apply Plain.rotateA
      | with_reducible apply Plain.shiftReg
      | with_reducible apply Plain.shiftMem
      | with_reducible apply Plain.digitRotate
      | with_reducible apply Plain.testBit
      | with_reducible apply Plain.jumpTo
      | with_reducible apply Plain.jumpRelative
      | with_reducible apply Plain.callTo
      | with_reducible apply Plain.returnFrom
      | with_reducible apply Plain.blockMove
      | with_reducible apply Plain.blockCompare
      | with_reducible apply Plain.repeatWhile
      | with_reducible apply Plain.countIo
      | with_reducible apply Plain.afterPortIn
      | with_reducible apply Plain.blockIn
      | with_reducible apply Plain.ite
      | with_reducible apply Plain.ix
      | with_reducible apply Plain.iy
      | with_reducible apply Plain.sp
      | with_reducible apply Plain.main
      | with_reducible apply Plain.flags
      | with_reducible apply Plain.pc

end Sys2Proof.Machine
end

