-- ==== Sys2Proof/Tests/Slice0.lean ====
section
/-! SUPPORT. The model's own tests: one step of the derived vectors of 95_test_vectors B.1 to B.12, decoding, the
checks of `WellFormed`, and a witness for the hypotheses of each statement. Expected values are the spec's. -/

open Sys2Proof Sys2Proof.Machine

namespace Sys2Proof.Tests

/-- The baseline of 95_test_vectors B: RAM bank 0 selected, the code at `pc`, the registers zero. -/
def base (pc : Word) (code : List Byte) : State :=
  { State.reset with bank := 0x80, initMask := 0xFFFF, pc := pc }.plantList pc code

/-- Bytes put in memory. -/
def pokes (s : State) : List (Word × Byte) → State
  | [] => s
  | (a, v) :: rest => pokes (s.plant a v) rest

/-- What one step leaves, seen through `f`. -/
def view {α : Type} (s : State) (f : State → α) : Option α :=
  match step s with
  | .next t => some (f t)
  | _ => none

/-! ### Load (B.1) -/

theorem test_LD_B_C :
    view ({ base 0x9000 [0x41] with main := { RegSet.zero with c := 0x5A } })
      (fun t => (t.main.b, t.pc, t.rReg)) = some (0x5A, 0x9001, 0x01) := by decide
theorem test_LD_H_0x80 :
    view (base 0x9000 [0x26, 0x80])
      (fun t => (t.main.h, t.pc, t.rReg)) = some (0x80, 0x9002, 0x01) := by decide
theorem test_LD_E_HL :
    view ({ pokes (base 0x9000 [0x5E]) [(0x9100, 0xC3)] with main := { RegSet.zero with h := 0x91, l := 0x00 } })
      (fun t => (t.main.e, t.pc, t.rReg)) = some (0xC3, 0x9001, 0x01) := by decide
theorem test_LD_D_IXm1 :
    view ({ pokes (base 0x9000 [0xDD, 0x56, 0xFF]) [(0x90FF, 0x77)] with ix := 0x9100 })
      (fun t => (t.main.d, t.pc, t.rReg)) = some (0x77, 0x9003, 0x02) := by decide
theorem test_LD_HL_A :
    view ({ base 0x9000 [0x77] with main := { RegSet.zero with h := 0x91, l := 0x00, a := 0xEE } })
      (fun t => (t.fetch 0x9100, t.pc, t.rReg)) = some (0xEE, 0x9001, 0x01) := by decide
theorem test_LD_HL_0x99 :
    view ({ base 0x9000 [0x36, 0x99] with main := { RegSet.zero with h := 0x91, l := 0x00 } })
      (fun t => (t.fetch 0x9100, t.pc, t.rReg)) = some (0x99, 0x9002, 0x01) := by decide
theorem test_LD_A_BC :
    view ({ pokes (base 0x9000 [0x0A]) [(0x9100, 0x21)] with main := { RegSet.zero with b := 0x91, c := 0x00 } })
      (fun t => (t.main.a, t.pc, t.rReg)) = some (0x21, 0x9001, 0x01) := by decide
theorem test_LD_A_0x9102 :
    view (pokes (base 0x9000 [0x3A, 0x02, 0x91]) [(0x9102, 0x23)])
      (fun t => (t.main.a, t.pc, t.rReg)) = some (0x23, 0x9003, 0x01) := by decide
theorem test_LD_BC_A :
    view ({ base 0x9000 [0x02] with main := { RegSet.zero with b := 0x91, c := 0x00, a := 0x31 } })
      (fun t => (t.fetch 0x9100, t.pc, t.rReg)) = some (0x31, 0x9001, 0x01) := by decide
theorem test_LD_0x9100_A :
    view ({ base 0x9000 [0x32, 0x00, 0x91] with main := { RegSet.zero with a := 0x33 } })
      (fun t => (t.fetch 0x9100, t.pc, t.rReg)) = some (0x33, 0x9003, 0x01) := by decide
theorem test_LD_A_I :
    view ({ base 0x9000 [0xED, 0x57] with
        main := { RegSet.zero with f := Flags.ofByte 0x01 },
        iReg := 0x80,
        iff2 := true })
      (fun t => (t.main.a, t.doc, t.pc, t.rReg)) =
        some (0x80, (Flags.ofByte 0x85).toDocFlags, 0x9002, 0x02) := by decide
theorem test_LD_A_R :
    view ({ base 0x9000 [0xED, 0x5F] with rReg := 0x7E, iff2 := true })
      (fun t => (t.doc, t.pc, t.rReg)) = some ((Flags.ofByte 0x44).toDocFlags, 0x9002, 0x00) := by decide
theorem test_LD_I_A :
    view ({ base 0x9000 [0xED, 0x47] with main := { RegSet.zero with a := 0x12, f := Flags.ofByte 0xFF } })
      (fun t => (t.iReg, t.pc, t.rReg)) = some (0x12, 0x9002, 0x02) := by decide
theorem test_LD_R_A :
    view ({ base 0x9000 [0xED, 0x4F] with main := { RegSet.zero with a := 0x85 } })
      (fun t => (t.pc, t.rReg)) = some (0x9002, 0x85) := by decide
theorem test_LD_BC_0x1234 :
    view (base 0x9000 [0x01, 0x34, 0x12])
      (fun t => (t.main.b, t.main.c, t.pc, t.rReg)) = some (0x12, 0x34, 0x9003, 0x01) := by decide
theorem test_LD_SP_0xFFFE :
    view (base 0x9000 [0x31, 0xFE, 0xFF])
      (fun t => (t.sp, t.pc, t.rReg)) = some (0xFFFE, 0x9003, 0x01) := by decide
theorem test_LD_IX_0xBEEF :
    view (base 0x9000 [0xDD, 0x21, 0xEF, 0xBE])
      (fun t => (t.ix, t.pc, t.rReg)) = some (0xBEEF, 0x9004, 0x02) := by decide
theorem test_LD_HL_0x9100 :
    view (pokes (base 0x9000 [0x2A, 0x00, 0x91]) [(0x9100, 0x34), (0x9101, 0x12)])
      (fun t => (t.main.h, t.main.l, t.pc, t.rReg)) = some (0x12, 0x34, 0x9003, 0x01) := by decide
theorem test_LD_DE_0xFFFF :
    view (pokes (base 0x9000 [0xED, 0x5B, 0xFF, 0xFF]) [(0xFFFF, 0xCD), (0x0000, 0xAB)])
      (fun t => (t.main.d, t.main.e, t.pc, t.rReg)) = some (0xAB, 0xCD, 0x9004, 0x02) := by decide
theorem test_LD_SP_0x9100 :
    view (pokes (base 0x9000 [0xED, 0x7B, 0x00, 0x91]) [(0x9100, 0x00), (0x9101, 0xA0)])
      (fun t => (t.sp, t.pc, t.rReg)) = some (0xA000, 0x9004, 0x02) := by decide
theorem test_LD_0x9100_HL :
    view ({ base 0x9000 [0x22, 0x00, 0x91] with main := { RegSet.zero with h := 0xA1, l := 0xB2 } })
      (fun t => (t.fetch 0x9100, t.fetch 0x9101, t.pc, t.rReg)) = some (0xB2, 0xA1, 0x9003, 0x01) := by decide
theorem test_LD_0x9100_BC :
    view ({ base 0x9000 [0xED, 0x43, 0x00, 0x91] with main := { RegSet.zero with b := 0xA1, c := 0xB2 } })
      (fun t => (t.fetch 0x9100, t.fetch 0x9101, t.pc, t.rReg)) = some (0xB2, 0xA1, 0x9004, 0x02) := by decide
theorem test_LD_SP_HL :
    view ({ base 0x9000 [0xF9] with main := { RegSet.zero with h := 0xA0, l := 0x00 } })
      (fun t => (t.sp, t.pc, t.rReg)) = some (0xA000, 0x9001, 0x01) := by decide
theorem test_PUSH_BC :
    view ({ base 0x9000 [0xC5] with main := { RegSet.zero with b := 0x12, c := 0x34 }, sp := 0xA000 })
      (fun t => (t.sp, t.fetch 0x9FFE, t.fetch 0x9FFF, t.pc, t.rReg)) =
        some (0x9FFE, 0x34, 0x12, 0x9001, 0x01) := by decide
theorem test_PUSH_AF :
    view ({ base 0x9000 [0xF5] with main := { RegSet.zero with a := 0x12, f := Flags.ofByte 0xFF }, sp := 0x0001 })
      (fun t => (t.sp, t.fetch 0x0000, t.fetch 0xFFFF, t.pc, t.rReg)) =
        some (0xFFFF, 0x12, 0xFF, 0x9001, 0x01) := by decide
theorem test_POP_DE :
    view ({ pokes (base 0x9000 [0xD1]) [(0x9FFE, 0x34), (0x9FFF, 0x12)] with sp := 0x9FFE })
      (fun t => (t.main.d, t.main.e, t.sp, t.pc, t.rReg)) = some (0x12, 0x34, 0xA000, 0x9001, 0x01) := by decide
theorem test_POP_AF :
    view ({ pokes (base 0x9000 [0xF1]) [(0x9FFE, 0xFF), (0x9FFF, 0x12)] with sp := 0x9FFE })
      (fun t => (t.main.a, t.sp, t.main.f, t.pc, t.rReg)) =
        some (0x12, 0xA000, Flags.ofByte 0xFF, 0x9001, 0x01) := by decide
theorem test_POP_IX :
    view ({ pokes (base 0x9000 [0xDD, 0xE1]) [(0xFFFF, 0x34), (0x0000, 0x12)] with sp := 0xFFFF })
      (fun t => (t.ix, t.sp, t.pc, t.rReg)) = some (0x1234, 0x0001, 0x9002, 0x02) := by decide
theorem test_LD_HL_A_into_ROM :
    view ({ base 0x9000 [0x77] with main := { RegSet.zero with h := 0x01, l := 0x00, a := 0xEE }, bank := 0x00 })
      (fun t => (t.pc, t.rReg)) = some (0x9001, 0x01) := by decide
theorem test_PUSH_HL_into_ROM :
    view ({ base 0x9000 [0xE5] with main := { RegSet.zero with h := 0x12, l := 0x34 }, sp := 0x4000, bank := 0x00 })
      (fun t => (t.sp, t.pc, t.rReg)) = some (0x3FFE, 0x9001, 0x01) := by decide

/-! ### 8-bit arithmetic and logic (B.2) -/

theorem test_ADD_A_B :
    view ({ base 0x9000 [0x80] with main := { RegSet.zero with a := 0x0F, b := 0x01 } })
      (fun t => (t.main.a, t.doc, t.pc, t.rReg)) =
        some (0x10, (Flags.ofByte 0x10).toDocFlags, 0x9001, 0x01) := by decide
theorem test_ADD_A_HL :
    view ({ pokes (base 0x9000 [0x86]) [(0x9100, 0xFF)] with
        main := { RegSet.zero with a := 0x01, h := 0x91, l := 0x00 } })
      (fun t => (t.main.a, t.doc, t.pc, t.rReg)) =
        some (0x00, (Flags.ofByte 0x51).toDocFlags, 0x9001, 0x01) := by decide
theorem test_SUB_D :
    view ({ base 0x9000 [0x92] with main := { RegSet.zero with a := 0x10, d := 0x01 } })
      (fun t => (t.main.a, t.doc, t.pc, t.rReg)) =
        some (0x0F, (Flags.ofByte 0x12).toDocFlags, 0x9001, 0x01) := by decide
theorem test_SBC_A_E :
    view ({ base 0x9000 [0x9B] with main := { RegSet.zero with a := 0x00, e := 0x00, f := Flags.ofByte 0x01 } })
      (fun t => (t.main.a, t.doc, t.pc, t.rReg)) =
        some (0xFF, (Flags.ofByte 0x93).toDocFlags, 0x9001, 0x01) := by decide
theorem test_AND_H :
    view ({ base 0x9000 [0xA4] with main := { RegSet.zero with a := 0xF0, h := 0x3C, f := Flags.ofByte 0x01 } })
      (fun t => (t.main.a, t.doc, t.pc, t.rReg)) =
        some (0x30, (Flags.ofByte 0x14).toDocFlags, 0x9001, 0x01) := by decide
theorem test_XOR_A :
    view ({ base 0x9000 [0xAF] with main := { RegSet.zero with a := 0x5A, f := Flags.ofByte 0xFF } })
      (fun t => (t.main.a, t.doc, t.pc, t.rReg)) =
        some (0x00, (Flags.ofByte 0x44).toDocFlags, 0x9001, 0x01) := by decide
theorem test_OR_L :
    view ({ base 0x9000 [0xB5] with main := { RegSet.zero with a := 0x00, l := 0x00, f := Flags.ofByte 0xFF } })
      (fun t => (t.doc, t.pc, t.rReg)) = some ((Flags.ofByte 0x44).toDocFlags, 0x9001, 0x01) := by decide
theorem test_CP_B :
    view ({ base 0x9000 [0xB8] with main := { RegSet.zero with a := 0x10, b := 0x10 } })
      (fun t => (t.doc, t.pc, t.rReg)) = some ((Flags.ofByte 0x42).toDocFlags, 0x9001, 0x01) := by decide
theorem test_INC_A :
    view ({ base 0x9000 [0x3C] with main := { RegSet.zero with a := 0x7F, f := Flags.ofByte 0x01 } })
      (fun t => (t.main.a, t.doc, t.pc, t.rReg)) =
        some (0x80, (Flags.ofByte 0x95).toDocFlags, 0x9001, 0x01) := by decide
theorem test_INC_HL :
    view ({ pokes (base 0x9000 [0x34]) [(0x9100, 0xFF)] with main := { RegSet.zero with h := 0x91, l := 0x00 } })
      (fun t => (t.doc, t.fetch 0x9100, t.pc, t.rReg)) =
        some ((Flags.ofByte 0x50).toDocFlags, 0x00, 0x9001, 0x01) := by decide
theorem test_INC_HL_in_ROM :
    view ({ base 0x9000 [0x34] with
        main := { RegSet.zero with h := 0x01, l := 0x00 },
        rom := { cells := [(256, 0x7F)] },
        bank := 0x00 })
      (fun t => (t.doc, t.pc, t.rReg)) = some ((Flags.ofByte 0x94).toDocFlags, 0x9001, 0x01) := by decide
theorem test_DEC_A :
    view ({ base 0x9000 [0x3D] with main := { RegSet.zero with a := 0x80, f := Flags.ofByte 0x01 } })
      (fun t => (t.main.a, t.doc, t.pc, t.rReg)) =
        some (0x7F, (Flags.ofByte 0x17).toDocFlags, 0x9001, 0x01) := by decide
theorem test_DEC_HL :
    view ({ pokes (base 0x9000 [0x35]) [(0x9100, 0x01)] with main := { RegSet.zero with h := 0x91, l := 0x00 } })
      (fun t => (t.doc, t.fetch 0x9100, t.pc, t.rReg)) =
        some ((Flags.ofByte 0x42).toDocFlags, 0x00, 0x9001, 0x01) := by decide
theorem test_DAA_after_add :
    view ({ base 0x9000 [0x27] with main := { RegSet.zero with a := 0x3C, f := Flags.ofByte 0x00 } })
      (fun t => (t.main.a, t.doc, t.pc, t.rReg)) =
        some (0x42, (Flags.ofByte 0x14).toDocFlags, 0x9001, 0x01) := by decide
theorem test_DAA_after_add_carry_out :
    view ({ base 0x9000 [0x27] with main := { RegSet.zero with a := 0x9A, f := Flags.ofByte 0x00 } })
      (fun t => (t.main.a, t.doc, t.pc, t.rReg)) =
        some (0x00, (Flags.ofByte 0x55).toDocFlags, 0x9001, 0x01) := by decide
theorem test_CPL :
    view ({ base 0x9000 [0x2F] with main := { RegSet.zero with a := 0x5A, f := Flags.ofByte 0xC5 } })
      (fun t => (t.main.a, t.doc, t.pc, t.rReg)) =
        some (0xA5, (Flags.ofByte 0xD7).toDocFlags, 0x9001, 0x01) := by decide
theorem test_NEG :
    view ({ base 0x9000 [0xED, 0x44] with main := { RegSet.zero with a := 0x01 } })
      (fun t => (t.main.a, t.doc, t.pc, t.rReg)) =
        some (0xFF, (Flags.ofByte 0x93).toDocFlags, 0x9002, 0x02) := by decide
theorem test_CCF :
    view ({ base 0x9000 [0x3F] with main := { RegSet.zero with f := Flags.ofByte 0x01 } })
      (fun t => (t.doc, t.pc, t.rReg)) = some ((Flags.ofByte 0x10).toDocFlags, 0x9001, 0x01) := by decide
theorem test_SCF :
    view ({ base 0x9000 [0x37] with main := { RegSet.zero with f := Flags.ofByte 0xD6 } })
      (fun t => (t.doc, t.pc, t.rReg)) = some ((Flags.ofByte 0xC5).toDocFlags, 0x9001, 0x01) := by decide

/-! ### 16-bit arithmetic (B.3) -/

theorem test_ADD_HL_BC :
    view ({ base 0x9000 [0x09] with
        main := { RegSet.zero with h := 0x0F, l := 0xFF, b := 0x00, c := 0x01, f := Flags.ofByte 0xC4 } })
      (fun t => (t.main.h, t.main.l, t.doc, t.pc, t.rReg)) =
        some (0x10, 0x00, (Flags.ofByte 0xD4).toDocFlags, 0x9001, 0x01) := by decide
theorem test_ADC_HL_BC :
    view ({ base 0x9000 [0xED, 0x4A] with
        main := { RegSet.zero with h := 0x7F, l := 0xFF, b := 0x00, c := 0x00, f := Flags.ofByte 0x01 } })
      (fun t => (t.main.h, t.main.l, t.doc, t.pc, t.rReg)) =
        some (0x80, 0x00, (Flags.ofByte 0x94).toDocFlags, 0x9002, 0x02) := by decide
theorem test_SBC_HL_BC :
    view ({ base 0x9000 [0xED, 0x42] with
        main := { RegSet.zero with h := 0x00, l := 0x00, b := 0x00, c := 0x00, f := Flags.ofByte 0x01 } })
      (fun t => (t.main.h, t.main.l, t.doc, t.pc, t.rReg)) =
        some (0xFF, 0xFF, (Flags.ofByte 0x93).toDocFlags, 0x9002, 0x02) := by decide
theorem test_ADD_IX_BC :
    view ({ base 0x9000 [0xDD, 0x09] with main := { RegSet.zero with b := 0x00, c := 0x01 }, ix := 0x0FFF })
      (fun t => (t.ix, t.doc, t.pc, t.rReg)) =
        some (0x1000, (Flags.ofByte 0x10).toDocFlags, 0x9002, 0x02) := by decide
theorem test_INC_BC :
    view ({ base 0x9000 [0x03] with main := { RegSet.zero with b := 0xFF, c := 0xFF, f := Flags.ofByte 0xFF } })
      (fun t => (t.main.b, t.main.c, t.pc, t.rReg)) = some (0x00, 0x00, 0x9001, 0x01) := by decide
theorem test_DEC_DE :
    view ({ base 0x9000 [0x1B] with main := { RegSet.zero with d := 0x00, e := 0x00, f := Flags.ofByte 0x00 } })
      (fun t => (t.main.d, t.main.e, t.pc, t.rReg)) = some (0xFF, 0xFF, 0x9001, 0x01) := by decide
theorem test_INC_IX :
    view ({ base 0x9000 [0xDD, 0x23] with ix := 0xFFFF })
      (fun t => (t.ix, t.pc, t.rReg)) = some (0x0000, 0x9002, 0x02) := by decide

/-! ### Rotate and shift (B.4) -/

theorem test_RLCA :
    view ({ base 0x9000 [0x07] with main := { RegSet.zero with a := 0x81, f := Flags.ofByte 0xC4 } })
      (fun t => (t.main.a, t.doc, t.pc, t.rReg)) =
        some (0x03, (Flags.ofByte 0xC5).toDocFlags, 0x9001, 0x01) := by decide
theorem test_RLA :
    view ({ base 0x9000 [0x17] with main := { RegSet.zero with a := 0x80, f := Flags.ofByte 0x00 } })
      (fun t => (t.main.a, t.doc, t.pc, t.rReg)) =
        some (0x00, (Flags.ofByte 0x01).toDocFlags, 0x9001, 0x01) := by decide
theorem test_RRCA :
    view ({ base 0x9000 [0x0F] with main := { RegSet.zero with a := 0x01, f := Flags.ofByte 0xFE } })
      (fun t => (t.main.a, t.doc, t.pc, t.rReg)) =
        some (0x80, (Flags.ofByte 0xC5).toDocFlags, 0x9001, 0x01) := by decide
theorem test_RRA :
    view ({ base 0x9000 [0x1F] with main := { RegSet.zero with a := 0x01, f := Flags.ofByte 0x00 } })
      (fun t => (t.main.a, t.doc, t.pc, t.rReg)) =
        some (0x00, (Flags.ofByte 0x01).toDocFlags, 0x9001, 0x01) := by decide
theorem test_RLC_B :
    view ({ base 0x9000 [0xCB, 0x00] with main := { RegSet.zero with b := 0x80 } })
      (fun t => (t.main.b, t.doc, t.pc, t.rReg)) =
        some (0x01, (Flags.ofByte 0x01).toDocFlags, 0x9002, 0x02) := by decide
theorem test_RLC_HL :
    view ({ pokes (base 0x9000 [0xCB, 0x06]) [(0x9100, 0x01)] with
        main := { RegSet.zero with h := 0x91, l := 0x00, f := Flags.ofByte 0x01 } })
      (fun t => (t.doc, t.fetch 0x9100, t.pc, t.rReg)) =
        some ((Flags.ofByte 0x00).toDocFlags, 0x02, 0x9002, 0x02) := by decide
theorem test_RRC_C :
    view ({ base 0x9000 [0xCB, 0x09] with main := { RegSet.zero with c := 0x01 } })
      (fun t => (t.main.c, t.doc, t.pc, t.rReg)) =
        some (0x80, (Flags.ofByte 0x81).toDocFlags, 0x9002, 0x02) := by decide
theorem test_RL_D :
    view ({ base 0x9000 [0xCB, 0x12] with main := { RegSet.zero with d := 0x80, f := Flags.ofByte 0x00 } })
      (fun t => (t.main.d, t.doc, t.pc, t.rReg)) =
        some (0x00, (Flags.ofByte 0x45).toDocFlags, 0x9002, 0x02) := by decide
theorem test_RR_E :
    view ({ base 0x9000 [0xCB, 0x1B] with main := { RegSet.zero with e := 0x01, f := Flags.ofByte 0x00 } })
      (fun t => (t.main.e, t.doc, t.pc, t.rReg)) =
        some (0x00, (Flags.ofByte 0x45).toDocFlags, 0x9002, 0x02) := by decide
theorem test_SLA_H :
    view ({ base 0x9000 [0xCB, 0x24] with main := { RegSet.zero with h := 0xC0, f := Flags.ofByte 0x01 } })
      (fun t => (t.main.h, t.doc, t.pc, t.rReg)) =
        some (0x80, (Flags.ofByte 0x81).toDocFlags, 0x9002, 0x02) := by decide
theorem test_SRA_L :
    view ({ base 0x9000 [0xCB, 0x2D] with main := { RegSet.zero with l := 0x81 } })
      (fun t => (t.main.l, t.doc, t.pc, t.rReg)) =
        some (0xC0, (Flags.ofByte 0x85).toDocFlags, 0x9002, 0x02) := by decide
theorem test_SRA_IYp2 :
    view ({ pokes (base 0x9000 [0xFD, 0xCB, 0x02, 0x2E]) [(0x9102, 0xFE)] with iy := 0x9100 })
      (fun t => (t.doc, t.fetch 0x9102, t.pc, t.rReg)) =
        some ((Flags.ofByte 0x84).toDocFlags, 0xFF, 0x9004, 0x02) := by decide
theorem test_SRL_A :
    view ({ base 0x9000 [0xCB, 0x3F] with main := { RegSet.zero with a := 0x81 } })
      (fun t => (t.main.a, t.doc, t.pc, t.rReg)) =
        some (0x40, (Flags.ofByte 0x01).toDocFlags, 0x9002, 0x02) := by decide
theorem test_RLD :
    view ({ pokes (base 0x9000 [0xED, 0x6F]) [(0x9100, 0x31)] with
        main := { RegSet.zero with a := 0x7A, h := 0x91, l := 0x00, f := Flags.ofByte 0x01 } })
      (fun t => (t.main.a, t.doc, t.fetch 0x9100, t.pc, t.rReg)) =
        some (0x73, (Flags.ofByte 0x01).toDocFlags, 0x1A, 0x9002, 0x02) := by decide
theorem test_RRD :
    view ({ pokes (base 0x9000 [0xED, 0x67]) [(0x9100, 0x20)] with
        main := { RegSet.zero with a := 0x84, h := 0x91, l := 0x00, f := Flags.ofByte 0x00 } })
      (fun t => (t.main.a, t.doc, t.fetch 0x9100, t.pc, t.rReg)) =
        some (0x80, (Flags.ofByte 0x80).toDocFlags, 0x42, 0x9002, 0x02) := by decide
theorem test_SLL_B_undocumented :
    view ({ base 0x9000 [0xCB, 0x30] with main := { RegSet.zero with b := 0x01 } })
      (fun t => (t.halted, t.hstate, t.report, t.pc, t.rReg)) =
        some (true, .halted, some (.unimplementedOpcode 0x30 0x9000), 0x9000, 0x00) := by decide
theorem test_RLC_IXp0_B_undocumented :
    view ({ base 0x9000 [0xDD, 0xCB, 0x00, 0x00] with ix := 0x9100 })
      (fun t => (t.halted, t.hstate, t.report, t.pc, t.rReg)) =
        some (true, .halted, some (.unimplementedOpcode 0x00 0x9000), 0x9000, 0x00) := by decide

/-! ### Bit (B.5) -/

theorem test_BIT_0_A :
    view ({ base 0x9000 [0xCB, 0x47] with main := { RegSet.zero with a := 0x01, f := Flags.ofByte 0x01 } })
      (fun t => (t.main.f.z, t.main.f.h, t.main.f.n, t.pc, t.rReg)) =
        some (false, true, false, 0x9002, 0x02) := by decide
theorem test_BIT_3_HL :
    view ({ pokes (base 0x9000 [0xCB, 0x5E]) [(0x9100, 0xF7)] with
        main := { RegSet.zero with h := 0x91, l := 0x00, f := Flags.ofByte 0xFF } })
      (fun t => (t.main.f.z, t.main.f.h, t.main.f.n, t.pc, t.rReg)) =
        some (true, true, false, 0x9002, 0x02) := by decide
theorem test_SET_0_A :
    view ({ base 0x9000 [0xCB, 0xC7] with main := { RegSet.zero with a := 0x00, f := Flags.ofByte 0xFF } })
      (fun t => (t.main.a, t.pc, t.rReg)) = some (0x01, 0x9002, 0x02) := by decide
theorem test_SET_7_HL :
    view ({ pokes (base 0x9000 [0xCB, 0xFE]) [(0x9100, 0x01)] with
        main := { RegSet.zero with h := 0x91, l := 0x00 } })
      (fun t => (t.fetch 0x9100, t.pc, t.rReg)) = some (0x81, 0x9002, 0x02) := by decide
theorem test_RES_0_A :
    view ({ base 0x9000 [0xCB, 0x87] with main := { RegSet.zero with a := 0xFF } })
      (fun t => (t.main.a, t.pc, t.rReg)) = some (0xFE, 0x9002, 0x02) := by decide
theorem test_RES_7_HL :
    view ({ pokes (base 0x9000 [0xCB, 0xBE]) [(0x9100, 0xFF)] with
        main := { RegSet.zero with h := 0x91, l := 0x00 } })
      (fun t => (t.fetch 0x9100, t.pc, t.rReg)) = some (0x7F, 0x9002, 0x02) := by decide

/-! ### Jump, call, return (B.6) -/

theorem test_JP_0x1234 :
    view (base 0x9000 [0xC3, 0x34, 0x12])
      (fun t => (t.pc, t.rReg)) = some (0x1234, 0x01) := by decide
theorem test_JP_NZ_0x1234_taken :
    view ({ base 0x9000 [0xC2, 0x34, 0x12] with main := { RegSet.zero with f := Flags.ofByte 0x00 } })
      (fun t => (t.pc, t.rReg)) = some (0x1234, 0x01) := by decide
theorem test_JR_p5 :
    view (base 0x9000 [0x18, 0x05])
      (fun t => (t.pc, t.rReg)) = some (0x9007, 0x01) := by decide
theorem test_JR_C_p0x7F_taken :
    view ({ base 0x9000 [0x38, 0x7F] with main := { RegSet.zero with f := Flags.ofByte 0x01 } })
      (fun t => (t.pc, t.rReg)) = some (0x9081, 0x01) := by decide
theorem test_JR_NC_p0x10_not_taken :
    view ({ base 0x9000 [0x30, 0x10] with main := { RegSet.zero with f := Flags.ofByte 0x01 } })
      (fun t => (t.pc, t.rReg)) = some (0x9002, 0x01) := by decide
theorem test_JR_Z_m4_taken :
    view ({ base 0x9000 [0x28, 0xFC] with main := { RegSet.zero with f := Flags.ofByte 0x40 } })
      (fun t => (t.pc, t.rReg)) = some (0x8FFE, 0x01) := by decide
theorem test_JR_NZ_p2_taken :
    view ({ base 0x9000 [0x20, 0x02] with main := { RegSet.zero with f := Flags.ofByte 0x00 } })
      (fun t => (t.pc, t.rReg)) = some (0x9004, 0x01) := by decide
theorem test_JP_HL :
    view ({ base 0x9000 [0xE9] with main := { RegSet.zero with h := 0xAB, l := 0xCD } })
      (fun t => (t.pc, t.rReg)) = some (0xABCD, 0x01) := by decide
theorem test_JP_IX :
    view ({ base 0x9000 [0xDD, 0xE9] with ix := 0x0008 })
      (fun t => (t.pc, t.rReg)) = some (0x0008, 0x02) := by decide
theorem test_DJNZ_m2_taken :
    view ({ base 0x9000 [0x10, 0xFE] with main := { RegSet.zero with b := 0x02, f := Flags.ofByte 0xFF } })
      (fun t => (t.main.b, t.pc, t.rReg)) = some (0x01, 0x9000, 0x01) := by decide
theorem test_CALL_0x1234 :
    view ({ base 0x9000 [0xCD, 0x34, 0x12] with sp := 0xA000 })
      (fun t => (t.sp, t.fetch 0x9FFE, t.fetch 0x9FFF, t.pc, t.rReg)) =
        some (0x9FFE, 0x03, 0x90, 0x1234, 0x01) := by decide
theorem test_CALL_Z_0x1234_taken :
    view ({ base 0x9000 [0xCC, 0x34, 0x12] with main := { RegSet.zero with f := Flags.ofByte 0x40 }, sp := 0xA000 })
      (fun t => (t.sp, t.fetch 0x9FFE, t.fetch 0x9FFF, t.pc, t.rReg)) =
        some (0x9FFE, 0x03, 0x90, 0x1234, 0x01) := by decide
theorem test_RET :
    view ({ pokes (base 0x9000 [0xC9]) [(0x9FFE, 0x34), (0x9FFF, 0x12)] with sp := 0x9FFE })
      (fun t => (t.sp, t.pc, t.rReg)) = some (0xA000, 0x1234, 0x01) := by decide
theorem test_RET_NC_taken :
    view ({ pokes (base 0x9000 [0xD0]) [(0x9FFE, 0x34), (0x9FFF, 0x12)] with
        main := { RegSet.zero with f := Flags.ofByte 0x00 },
        sp := 0x9FFE })
      (fun t => (t.sp, t.pc, t.rReg)) = some (0xA000, 0x1234, 0x01) := by decide
theorem test_RETI :
    view ({ pokes (base 0x9000 [0xED, 0x4D]) [(0x9FFE, 0x34), (0x9FFF, 0x12)] with
        sp := 0x9FFE,
        iff1 := false,
        iff2 := true })
      (fun t => (t.sp, t.pc, t.rReg)) = some (0xA000, 0x1234, 0x02) := by decide
theorem test_RETN :
    view ({ pokes (base 0x9000 [0xED, 0x45]) [(0x9FFE, 0x34), (0x9FFF, 0x12)] with
        sp := 0x9FFE,
        iff1 := false,
        iff2 := true })
      (fun t => (t.iff1, t.sp, t.pc, t.rReg)) = some (true, 0xA000, 0x1234, 0x02) := by decide
theorem test_RST_0x38 :
    view ({ base 0x9000 [0xFF] with sp := 0xA000 })
      (fun t => (t.sp, t.fetch 0x9FFE, t.fetch 0x9FFF, t.pc, t.rReg)) =
        some (0x9FFE, 0x01, 0x90, 0x0038, 0x01) := by decide

/-! ### Input and output (B.7) -/

theorem test_IN_A_0x68 :
    view ({ base 0x9000 [0xDB, 0x68] with main := { RegSet.zero with f := Flags.ofByte 0xFF }, inq := [0x41] })
      (fun t => (t.main.a, t.inq, t.pc, t.rReg)) = some (0x41, [], 0x9002, 0x01) := by decide
theorem test_IN_A_0x6D :
    view ({ base 0x9000 [0xDB, 0x6D] with inq := [0x41] })
      (fun t => (t.main.a, t.pc, t.rReg)) = some (0x61, 0x9002, 0x01) := by decide
theorem test_IN_A_0x78 :
    view ({ base 0x9000 [0xDB, 0x78] with main := { RegSet.zero with a := 0x12 } })
      (fun t => (t.main.a, t.pc, t.rReg)) = some (0x80, 0x9002, 0x01) := by decide
theorem test_IN_B_C :
    view ({ base 0x9000 [0xED, 0x40] with
        main := { RegSet.zero with c := 0x6D, f := Flags.ofByte 0x01 },
        inq := [0x01] })
      (fun t => (t.main.b, t.doc, t.pc, t.rReg)) =
        some (0x61, (Flags.ofByte 0x01).toDocFlags, 0x9002, 0x02) := by decide
theorem test_IN_A_C :
    view ({ base 0x9000 [0xED, 0x78] with
        main := { RegSet.zero with b := 0x12, c := 0x68, a := 0x55, f := Flags.ofByte 0x01 },
        inq := [] })
      (fun t => (t.main.a, t.doc, t.pc, t.rReg)) =
        some (0x00, (Flags.ofByte 0x45).toDocFlags, 0x9002, 0x02) := by decide
theorem test_INI :
    view ({ base 0x9000 [0xED, 0xA2] with
        main := { RegSet.zero with b := 0x02, c := 0x68, h := 0x91, l := 0x00 },
        inq := [0x41, 0x42] })
      (fun t => ((t.main.b, t.main.f.z, t.main.f.n, t.fetch 0x9100), (t.inq, t.pc))) =
        some ((0x01, false, true, 0x41), ([0x42], 0x9002)) := by decide
theorem test_INIR :
    view ({ base 0x9000 [0xED, 0xB2] with
        main := { RegSet.zero with b := 0x02, c := 0x68, h := 0x91, l := 0x00 },
        inq := [0x41, 0x42] })
      (fun t => ((t.main.b, t.main.f.z, t.main.f.n, t.fetch 0x9100), (t.inq, t.pc))) =
        some ((0x01, false, true, 0x41), ([0x42], 0x9000)) := by decide
theorem test_IND :
    view ({ base 0x9000 [0xED, 0xAA] with
        main := { RegSet.zero with b := 0x01, c := 0x68, h := 0x91, l := 0x00 },
        inq := [0x5A] })
      (fun t => ((t.main.b, t.main.f.z, t.main.f.n, t.fetch 0x9100), (t.inq, t.pc))) =
        some ((0x00, true, true, 0x5A), ([], 0x9002)) := by decide
theorem test_OUT_0x68_A :
    view ({ base 0x9000 [0xD3, 0x68] with main := { RegSet.zero with a := 0x48 } })
      (fun t => (t.outq, t.pc, t.rReg)) = some ([0x48], 0x9002, 0x01) := by decide
theorem test_OUT_0x78_A :
    view ({ base 0x9000 [0xD3, 0x78] with main := { RegSet.zero with a := 0x8E } })
      (fun t => (t.bank, t.pc, t.rReg)) = some (0x8E, 0x9002, 0x01) := by decide
theorem test_OUT_C_A :
    view ({ base 0x9000 [0xED, 0x79] with main := { RegSet.zero with b := 0x12, c := 0x68, a := 0x21 } })
      (fun t => (t.outq, t.pc, t.rReg)) = some ([0x21], 0x9002, 0x02) := by decide
theorem test_OUTI :
    view ({ pokes (base 0x9000 [0xED, 0xA3]) [(0x9100, 0x48), (0x9101, 0x69)] with
        main := { RegSet.zero with b := 0x02, c := 0x68, h := 0x91, l := 0x00 } })
      (fun t => (t.main.b, t.main.f.z, t.main.f.n, t.outq, t.pc)) =
        some (0x01, false, true, [0x48], 0x9002) := by decide
theorem test_OUTD :
    view ({ pokes (base 0x9000 [0xED, 0xAB]) [(0x9101, 0x69)] with
        main := { RegSet.zero with b := 0x01, c := 0x68, h := 0x91, l := 0x01 } })
      (fun t => (t.main.b, t.main.f.z, t.main.f.n, t.outq, t.pc)) =
        some (0x00, true, true, [0x69], 0x9002) := by decide

/-! ### Block transfer and search (B.8) -/

theorem test_LDI :
    view ({ pokes (base 0x9000 [0xED, 0xA0]) [(0x9100, 0xAA)] with
        main := { RegSet.zero with
          h := 0x91, l := 0x00, d := 0x92, e := 0x00, b := 0x00, c := 0x02, f := Flags.ofByte 0xFF } })
      (fun t => (t.main.c, t.main.e, t.doc, t.fetch 0x9200, t.pc)) =
        some (0x01, 0x01, (Flags.ofByte 0xC5).toDocFlags, 0xAA, 0x9002) := by decide
theorem test_LDIR :
    view ({ pokes (base 0x9000 [0xED, 0xB0]) [(0x9100, 0x01), (0x9101, 0x02), (0x9102, 0x03)] with
        main := { RegSet.zero with
          h := 0x91, l := 0x00, d := 0x92, e := 0x00, b := 0x00, c := 0x03, f := Flags.ofByte 0xC1 } })
      (fun t => (t.main.c, t.main.e, t.doc, t.fetch 0x9200, t.pc)) =
        some (0x02, 0x01, (Flags.ofByte 0xC5).toDocFlags, 0x01, 0x9000) := by decide
theorem test_LDD :
    view ({ pokes (base 0x9000 [0xED, 0xA8]) [(0x9100, 0xAA)] with
        main := { RegSet.zero with h := 0x91, l := 0x00, d := 0x92, e := 0x00, b := 0x00, c := 0x02 } })
      (fun t => ((t.main.c, t.main.d, t.main.e, t.doc), (t.fetch 0x9200, t.pc))) =
        some ((0x01, 0x91, 0xFF, (Flags.ofByte 0x04).toDocFlags), (0xAA, 0x9002)) := by decide
theorem test_CPI_match :
    view ({ pokes (base 0x9000 [0xED, 0xA1]) [(0x9100, 0x10)] with
        main := { RegSet.zero with
          a := 0x10, h := 0x91, l := 0x00, b := 0x00, c := 0x02, f := Flags.ofByte 0x01 } })
      (fun t => (t.main.c, t.main.l, t.doc, t.pc, t.rReg)) =
        some (0x01, 0x01, (Flags.ofByte 0x47).toDocFlags, 0x9002, 0x02) := by decide
theorem test_CPD :
    view ({ pokes (base 0x9000 [0xED, 0xA9]) [(0x9100, 0x10)] with
        main := { RegSet.zero with a := 0x10, h := 0x91, l := 0x00, b := 0x00, c := 0x02 } })
      (fun t => (t.main.c, t.main.l, t.doc, t.pc, t.rReg)) =
        some (0x01, 0xFF, (Flags.ofByte 0x46).toDocFlags, 0x9002, 0x02) := by decide

/-! ### Exchange and CPU control (B.9) -/

theorem test_EX_DE_HL :
    view ({ base 0x9000 [0xEB] with main := { RegSet.zero with d := 0x12, e := 0x34, h := 0xAB, l := 0xCD } })
      (fun t => (t.main.d, t.main.e)) = some (0xAB, 0xCD) := by decide
theorem test_EX_AF_AF :
    view ({ base 0x9000 [0x08] with
        main := { RegSet.zero with a := 0x11, f := Flags.ofByte 0x22 },
        shadow := { RegSet.zero with a := 0x33, f := Flags.ofByte 0x44 } })
      (fun t => (t.main.a, t.shadow.a, t.shadow.f, t.main.f)) =
        some (0x33, 0x11, Flags.ofByte 0x22, Flags.ofByte 0x44) := by decide
theorem test_EXX :
    view ({ base 0x9000 [0xD9] with
        main := { RegSet.zero with b := 0x01, c := 0x02, d := 0x03, e := 0x04, h := 0x05, l := 0x06 },
        shadow := { RegSet.zero with b := 0x11, c := 0x12, d := 0x13, e := 0x14, h := 0x15, l := 0x16 } })
      (fun t => ((t.main.b, t.main.c, t.main.d, t.main.e), (t.shadow.b, t.shadow.c, t.shadow.d, t.shadow.e))) =
        some ((0x11, 0x12, 0x13, 0x14), (0x01, 0x02, 0x03, 0x04)) := by decide
theorem test_EX_SP_HL :
    view ({ pokes (base 0x9000 [0xE3]) [(0xFDFE, 0xCD), (0xFDFF, 0xAB)] with
        main := { RegSet.zero with h := 0x12, l := 0x34 },
        sp := 0xFDFE })
      (fun t => (t.fetch 0xFDFE, t.fetch 0xFDFF)) = some (0x34, 0x12) := by decide
theorem test_EX_SP_IX :
    view ({ pokes (base 0x9000 [0xDD, 0xE3]) [(0xFDFE, 0xCD), (0xFDFF, 0xAB)] with sp := 0xFDFE, ix := 0x1234 })
      (fun t => (t.ix, t.fetch 0xFDFE, t.fetch 0xFDFF, t.pc, t.rReg)) =
        some (0xABCD, 0x34, 0x12, 0x9002, 0x02) := by decide
theorem test_NOP :
    view ({ base 0x9000 [0x00] with main := { RegSet.zero with f := Flags.ofByte 0xFF } })
      (fun t => (t.pc, t.rReg)) = some (0x9001, 0x01) := by decide
theorem test_HALT :
    view (base 0x9000 [0x76])
      (fun t => (t.halted, t.hstate, t.report, t.pc, t.rReg)) =
        some (true, .halted, some .haltExecuted, 0x9001, 0x01) := by decide
theorem test_DI :
    view ({ base 0x9000 [0xF3] with iff1 := true, iff2 := true })
      (fun t => (t.iff1, t.iff2, t.pc, t.rReg)) = some (false, false, 0x9001, 0x01) := by decide
theorem test_EI :
    view (base 0x9000 [0xFB])
      (fun t => (t.iff1, t.iff2, t.pc, t.rReg)) = some (true, true, 0x9001, 0x01) := by decide
theorem test_IM_2 :
    view (base 0x9000 [0xED, 0x5E])
      (fun t => (t.im, t.pc, t.rReg)) = some (.im2, 0x9002, 0x02) := by decide
theorem test_DD_prefix_before_DD :
    view (base 0x9000 [0xDD, 0xDD, 0x21, 0x00])
      (fun t => (t.halted, t.hstate, t.report, t.pc, t.rReg)) =
        some (true, .halted, some (.unimplementedOpcode 0xDD 0x9000), 0x9000, 0x00) := by decide
theorem test_R_wraps_in_7_bits :
    view ({ base 0x9000 [0x00] with rReg := 0xFF })
      (fun t => (t.pc, t.rReg)) = some (0x9001, 0x80) := by decide

/-! ### Memory, HBIOS, the host (B.10, B.11, B.12) -/

/-- The baseline of B.11: the trampoline at `0xFFF0`, `A = 0x55`. -/
def hbiosBase (b c d e h l : Byte) : State :=
  { base 0xFFF0 [0xD3, 0xEF, 0xC9] with
    main := { RegSet.zero with a := 0x55, b := b, c := c, d := d, e := e, h := h, l := l } }

/-- Unit 0 present with an image of `size` zero bytes, at sector `position`. -/
def withImage (s : State) (size : Nat) (position : BitVec 32) : State :=
  s.setUnit 0
    { present := true, data := { size := size, bytes := Memory.blank }, extraSlices := 0, position := position,
      dirty := false }

/-- Unit 0 present with a disk of one sector, at sector `position`. -/
def oneSector (s : State) (position : BitVec 32) : State :=
  s.setUnit 0
    { present := true, data := { size := 512, bytes := { cells := [(511, 0x7E)] } }, extraSlices := 0,
      position := position, dirty := false }

theorem test_fetch_bits_6_4_ignored :
    { State.reset with rom := { cells := [(0x18010, 0xC3)] }, bank := 0x73 }.fetch 0x0010 = 0xC3 := by decide
theorem test_ram_bank_15_is_the_common_area :
    ({ State.reset with bank := 0x8F, initMask := 0xFFFF }.store 0x0123 0x99).fetch 0x8123 = 0x99 := by decide
theorem test_writeBank_selects_nothing :
    (let t := { State.reset with bank := 0x80 }.writeBank 0x8E 0x0010 0x5A
     (t.ram.read 0x70010, t.bank, t.initMask)) = (0x5A, 0x80, 0x0000) := by decide
theorem test_first_select_of_bank_15 :
    (let t := { State.reset with
        rom := { cells := [(5, 0xA5)] }, ram := { cells := [(0x78005, 0x33)] } }.selectBank 0x8F
     (t.bank, t.initMask)) = (0x8F, 0x8000) := by decide
theorem test_CIOIN :
    view { hbiosBase 0x00 0x00 0 0 0 0 with inq := [0x3F, 0x0D] }
      (fun t => (t.main.a, t.main.e, t.inq, t.pc, t.icount)) = some (0x00, 0x3F, [0x0D], 0xFFF2, 1) := by decide
theorem test_CIOIN_empty :
    view (hbiosBase 0x00 0x00 0 0 0 0) (fun t => (t.hstate, t.pc, t.rReg, t.icount)) =
      some (.needsInput, 0xFFF0, 0x00, 0) := by decide
theorem test_CIOOUT :
    view (hbiosBase 0x01 0x43 0 0x45 0 0) (fun t => (t.main.a, t.outq, t.pc)) =
      some (0x00, [0x45], 0xFFF2) := by decide
theorem test_SYSGETBNK :
    view (hbiosBase 0xF3 0x00 0 0 0 0) (fun t => (t.main.a, t.main.c, t.pc)) = some (0x00, 0x80, 0xFFF2) := by decide
theorem test_SYSSETCPY :
    view (hbiosBase 0xF4 0x00 0x8E 0x01 0 0) (fun t => (t.main.a, t.fetch 0xFFE4, t.fetch 0xFFE7)) =
      some (0x00, 0x01, 0x8E) := by decide
theorem test_SYSPEEK :
    view { hbiosBase 0xFA 0x00 0x01 0 0x00 0x10 with rom := { cells := [(0x08010, 0xC9)] } }
      (fun t => (t.main.a, t.main.e, t.pc)) = some (0x00, 0xC9, 0xFFF2) := by decide
theorem test_SYSRESET_warm :
    view (hbiosBase 0xF0 0x00 0 0x01 0 0) (fun t => (t.bank, t.pc, t.rReg, t.icount, t.initMask)) =
      some (0x00, 0x0000, 0x01, 1, 0xFFFF) := by decide
theorem test_DIOSEEK :
    view (oneSector (hbiosBase 0x12 0x00 0x80 0x00 0x80 0x00) 0)
      (fun t => (t.main.a, (t.unitAt 0).position, (t.unitAt 0).dirty)) = some (0x00, 32768, false) := by decide
theorem test_DIOSEEK_unit_16 :
    view (oneSector (hbiosBase 0x12 0x10 0x00 0x00 0x00 0x01) 0)
      (fun t => (t.main.a, (t.unitAt 0).position)) = some (0x01, 0) := by decide
theorem test_DIOSEEK_unit_absent :
    view (oneSector (hbiosBase 0x12 0x03 0x00 0x00 0x00 0x01) 0)
      (fun t => (t.main.a, (t.unitAt 0).position)) = some (0x02, 0) := by decide
theorem test_DIOREAD_out_of_range :
    view (oneSector (hbiosBase 0x13 0x00 0x00 0x01 0x90 0x00) 1)
      (fun t => (t.main.a, t.main.e, (t.unitAt 0).position)) = some (0x03, 0x00, 1) := by decide
/-- R533's example: three sectors asked for, two in the image. -/
theorem test_DIOWRITE_partial :
    view (withImage (hbiosBase 0x14 0x00 0x00 0x03 0x90 0x00) 1024 0)
      (fun t => (t.main.a, t.main.e, (t.unitAt 0).position, (t.unitAt 0).dirty, t.hl)) =
      some (0x03, 0x02, 2, true, 0x9000) := by decide
/-- R530: DIORESET does not clear `dirty`, whatever the configuration answers; another code may. -/
theorem test_DIORESET_keeps_dirty :
    (let answer : UnitImage := { present := true, data := [], extraSlices := 0, position := 0, dirty := false }
     let old := { DiskUnit.absent with dirty := true }
     ((keepDirty 0x11 answer old).dirty, (keepDirty 0x16 answer old).dirty)) = (true, false) := by decide
theorem test_DIOCAP :
    view (oneSector (hbiosBase 0x1A 0x00 0x00 0x00 0x00 0x00) 0)
      (fun t => (t.main.a, t.de, t.hl, t.bc)) = some (0x00, 0x0000, 0x4000, 0x0200) := by decide
theorem test_bank_copy :
    view { pokes (base 0x9000 [0xD3, 0xEC]) [(0xFFE4, 0x80), (0xFFE7, 0x83), (0x0010, 0x5A), (0x0011, 0x5B)] with
        main := { RegSet.zero with c := 0x02, h := 0x00, l := 0x10, d := 0x00, e := 0x20 } }
      (fun t => (t.ram.read 0x18020, t.ram.read 0x18021, t.ram.read 0x18022, t.pc)) =
      some (0x5A, 0x5B, 0x00, 0x9002) := by decide
theorem test_reset_from_halted :
    (let t := hostReset { State.reset with
        pc := 0x9001, halted := true, hstate := .halted, report := some .haltExecuted, bank := 0x8E, initMask := 0x4001,
        sp := 0xA000, rReg := 0x85, outq := [0x48], inq := [0x41], icount := 5 }
     ((t.pc, t.halted, t.hstate, t.report), (t.bank, t.initMask, t.outq, t.inq))) =
      ((0x0000, false, .idle, none), (0x00, 0x4001, [], [0x41])) := by decide
theorem test_controlify :
    (let d : Driver := { machine := State.reset, running := false, controlify := .oneShot, delivered := [] }
     ((d.queueInput 0x43).queueInput 0x43).machine.inq) = [0x03, 0x43] := by decide
theorem test_run_batch_drains :
    (match ({ machine := hbiosBase 0x01 0x00 0 0x42 0 0, running := true, controlify := .off, delivered := [] } :
        Driver).runBatch 1 with
     | .next d => some (d.delivered, d.machine.outq)
     | _ => none) = some ([0x42], []) := by decide

/-! ### The four refusals (60 R605) -/

theorem test_refused_bank_call : step (base 0x9000 [0xD3, 0xED]) = .refused .bankCallPort := rfl
theorem test_refused_signal : step (base 0x9000 [0xD3, 0xEE]) = .refused .signalPort := rfl
theorem test_refused_sysboot : step (hbiosBase 0xFE 0 0 0 0 0) = .refused .sysBoot := rfl
theorem test_refused_bank_copy : step (base 0x9000 [0xD3, 0xEC]) = .refused .bankCopyZeroLength := rfl

/-! ### Decoding: words written out from 30_encoding, bit by bit -/

theorem test_decode_LD_r_r : decode [0b01010101, 0x99] = .ok (.ldRR .d .l, [0x99]) := rfl
theorem test_decode_LD_IX_d_n : decode [0xDD, 0b00110110, 0x80, 0x7F, 0x99] = .ok (.ldAtIXN 0x80 0x7F, [0x99]) := rfl
theorem test_decode_LD_nn_dd : decode [0xED, 0b01010011, 0x34, 0x12, 0x99] = .ok (.ldAtNNDD 0x1234 .de, [0x99]) := rfl
theorem test_decode_PUSH_AF : decode [0b11110101, 0x99] = .ok (.pushQQ .af, [0x99]) := rfl
theorem test_decode_SBC_A_n : decode [0b11011110, 0x01, 0x99] = .ok (.sbcN 0x01, [0x99]) := rfl
theorem test_decode_DEC_r : decode [0b00100101, 0x99] = .ok (.decR .h, [0x99]) := rfl
theorem test_decode_ADC_HL_ss : decode [0xED, 0b01111010, 0x99] = .ok (.adcHLSS .sp, [0x99]) := rfl
theorem test_decode_ADD_IX_IX : decode [0xDD, 0b00101001, 0x99] = .ok (.addIXPP .ix, [0x99]) := rfl
theorem test_decode_SRL_r : decode [0xCB, 0b00111011, 0x99] = .ok (.srlR .e, [0x99]) := rfl
theorem test_decode_RRD : decode [0xED, 0b01100111, 0x99] = .ok (.rrd, [0x99]) := rfl
theorem test_decode_SET_IY_d : decode [0xFD, 0xCB, 0x01, 0b11111110, 0x99] = .ok (.setAtIY 7 0x01, [0x99]) := rfl
theorem test_decode_RES_r : decode [0xCB, 0b10101010, 0x99] = .ok (.resR 5 .d, [0x99]) := rfl
theorem test_decode_CALL_cc : decode [0b11111100, 0x00, 0x80, 0x99] = .ok (.callCcNN .m 0x8000, [0x99]) := rfl
theorem test_decode_RST : decode [0b11110111, 0x99] = .ok (.rst 6, [0x99]) := rfl
theorem test_decode_RETN : decode [0xED, 0b01000101, 0x99] = .ok (.retn, [0x99]) := rfl
theorem test_decode_IN_r_C : decode [0xED, 0b01111000, 0x99] = .ok (.inRPortC .a, [0x99]) := rfl
theorem test_decode_OTDR : decode [0xED, 0b10111011, 0x99] = .ok (.otdr, [0x99]) := rfl
theorem test_decode_LDDR : decode [0xED, 0b10111000, 0x99] = .ok (.lddr, [0x99]) := rfl
theorem test_decode_EX_SP_HL : decode [0b11100011, 0x99] = .ok (.exAtSPHL, [0x99]) := rfl
theorem test_decode_IM_2 : decode [0xED, 0b01011110, 0x99] = .ok (.im2, [0x99]) := rfl

/-- R128: the byte R121 names is the one reported. -/
theorem test_refused_encodings :
    decode [0xCB, 0x30] = .error (.unimplementedOpcode 0x30) ∧ decode [0xED, 0x4C] = .error (.unimplementedOpcode 0x4C) ∧
    decode [0xDD, 0x7C] = .error (.unimplementedOpcode 0x7C) ∧ decode [0xFD, 0xFD] = .error (.unimplementedOpcode 0xFD) ∧
    decode [0xDD, 0xCB, 0x05, 0x47] = .error (.unimplementedOpcode 0x47) ∧ decode [0xC3, 0x00] = .error .truncated :=
  ⟨rfl, rfl, rfl, rfl, rfl, rfl⟩

/-- A row of the table, run from reset (log 14: the table numbers the first byte as the most significant). -/
theorem test_withFetchWord :
    decodeTableWord 16 0xDD23 = some .incIX ∧ decodeTableWord 8 0x76 = some .halt ∧
    (view (State.reset.withFetchWord 16 0xDD23) fun t => (t.ix, t.pc)) = some (1, 2) ∧
    (view ({ State.reset with halted := true }.withFetchWord 8 0x3C) fun t => (t.main.a, t.halted)) =
      some (1, false) := by decide

/-! ### WellFormed: an ill-formed term for each check -/

theorem test_wellFormed_bit : Instr.wellFormed (.bitR 8 .b) = false ∧ Instr.wellFormed (.bitR 7 .b) = true := by decide
theorem test_wellFormed_bit_memory :
    (Instr.wellFormed (.bitAtHL 8), Instr.wellFormed (.bitAtIX 8 0), Instr.wellFormed (.bitAtIY 9 0)) =
      (false, false, false) := by decide
theorem test_wellFormed_set :
    (Instr.wellFormed (.setR 8 .a), Instr.wellFormed (.setAtHL 8), Instr.wellFormed (.setAtIX 8 0),
      Instr.wellFormed (.setAtIY 8 0)) = (false, false, false, false) := by decide
theorem test_wellFormed_res :
    (Instr.wellFormed (.resR 8 .a), Instr.wellFormed (.resAtHL 8), Instr.wellFormed (.resAtIX 8 0),
      Instr.wellFormed (.resAtIY 8 0)) = (false, false, false, false) := by decide
theorem test_wellFormed_rst : Instr.wellFormed (.rst 8) = false ∧ Instr.wellFormed (.rst 7) = true := by decide

/-! ### Witnesses: a state and operands that meet the hypotheses of each statement that has some -/

/-- A state of the invariant that is not `State.reset`. -/
theorem inv_example (pc : Word) (b : Byte) (initMask : BitVec 16) (main : RegSet) (cells : List Host.Cell)
    (h : Memory.wf { cells := cells }) :
    State.Inv { State.reset with pc := pc, bank := b, initMask := initMask, main := main, ram := { cells := cells } } where
  rom := ⟨List.Pairwise.nil, by simp [State.reset, State.powerOn]⟩
  ram := h
  units := fun i => by
    simp only [State.unitAt, State.reset, State.powerOn, Vector.getElem_replicate]
    exact ⟨by decide, fun _ => rfl⟩
  halted := by simp [State.reset, State.powerOn]
  waiting := fun _ => rfl
  report := by simp [State.reset, State.powerOn]

theorem witness_DecodeOfEncode : Instr.wellFormed (.bitAtIX 7 0x80) = true ∧ Instr.wellFormed (.rst 7) = true := by decide

theorem witness_EncodeOfDecode : decode [0xCB, 0x7F, 0x99] = .ok (.bitR 7 .a, [0x99]) := rfl

/-- The four bytes at `PC`, as a list. -/
theorem code_at {s : State} {b0 b1 b2 b3 : Byte}
    (h : s.fetch s.pc = b0 ∧ s.fetch (s.pc + 1) = b1 ∧ s.fetch (s.pc + 2) = b2 ∧ s.fetch (s.pc + 3) = b3) :
    [s.fetch s.pc, s.fetch (s.pc + 1), s.fetch (s.pc + 2), s.fetch (s.pc + 3)] = [b0, b1, b2, b3] := by
  rw [h.1, h.2.1, h.2.2.1, h.2.2.2]

theorem witness_StepRunsDecoded :
    ∃ (s : State) (i : Instr) (rest : List Byte), s.halted = false ∧
      decode [s.fetch s.pc, s.fetch (s.pc + 1), s.fetch (s.pc + 2), s.fetch (s.pc + 3)] = .ok (i, rest) :=
  by
  refine ⟨base 0xFFFF [0x3E, 0x15], .ldRN .a 0x15, [0x00, 0x00], by decide, ?_⟩
  rw [code_at (b0 := 0x3E) (b1 := 0x15) (b2 := 0x00) (b3 := 0x00) (by decide)]
  rfl

theorem witness_HaltedStepDoesNothing : { State.reset with halted := true }.halted = true := rfl

theorem witness_UnimplementedStep :
    ∃ (s : State) (op : Byte) (rest : List Byte), s.halted = false ∧
      decode (s.fetch s.pc :: s.fetch (s.pc + 1) :: s.fetch (s.pc + 2) :: s.fetch (s.pc + 3) :: rest) =
        .error (.unimplementedOpcode op) :=
  by
  refine ⟨base 0x9000 [0xED, 0x00], 0x00, [], by decide, ?_⟩
  rw [code_at (b0 := 0xED) (b1 := 0x00) (b2 := 0x00) (b3 := 0x00) (by decide)]
  rfl

theorem witness_RefreshAndCount :
    (∃ t, exec .ldir State.reset = .next t) ∧ (∃ t, exec .ldRA State.reset = .next t) ∧
    ∃ t, exec (.outPortNA 0xEF) State.reset = .next t := ⟨⟨_, rfl⟩, ⟨_, rfl⟩, ⟨_, rfl⟩⟩

theorem witness_InvKept : ∃ s t : State, s.Inv ∧ step s = .next t :=
  ⟨_, _, inv_example 0x9000 0x80 0 RegSet.zero [(0x79000, 0x77)] (by decide), rfl⟩

theorem witness_RomImmutable : ∃ s t : State, s.bank = 0x00 ∧ step s = .next t :=
  ⟨{ base 0x9000 [0x77] with bank := 0x00 }, _, rfl, rfl⟩

theorem witness_SpecialRegisterWriters :
    ∃ t, exec .nop State.reset = .next t ∧ Instr.nop ≠ .di ∧ Instr.nop ≠ .ei ∧ Instr.nop ≠ .retn ∧ Instr.nop ≠ .im0 ∧
      Instr.nop ≠ .im1 ∧ Instr.nop ≠ .im2 ∧ Instr.nop ≠ .ldIA ∧ Instr.nop ≠ .exAFAF ∧ Instr.nop ≠ .exx :=
  ⟨_, rfl, by decide, by decide, by decide, by decide, by decide, by decide, by decide, by decide, by decide⟩

theorem witness_DispatcherStateWriters :
    ∃ t, exec .ldir State.reset = .next t ∧ isOutput .ldir = false ∧ Instr.ldir ≠ .ini ∧ Instr.ldir ≠ .inir ∧
      Instr.ldir ≠ .ind ∧ Instr.ldir ≠ .indr ∧ (∀ n, Instr.ldir ≠ .inAPortN n) ∧ (∀ r, Instr.ldir ≠ .inRPortC r) ∧
      Instr.ldir ≠ .halt :=
  ⟨_, rfl, rfl, by decide, by decide, by decide, by decide, by simp, by simp, by decide⟩

theorem witness_FlagsKept :
    keepsFlags (.popQQ .hl) = true ∧ keepsFlags (.outPortNA 0xEF) = true ∧
    (∃ t, exec (.popQQ .hl) State.reset = .next t) ∧ ∃ t, exec (.outPortNA 0xEF) State.reset = .next t :=
  ⟨rfl, rfl, ⟨_, rfl⟩, ⟨_, rfl⟩⟩

/-- One state for each of the three transitions: a `NOP`, `OUT (0xEF),A` with `B = 0` (CIOIN), and a `HALT`. -/
theorem witness_HStateTransitions :
    (∃ s t : State, s.Inv ∧ step s = .next t ∧ t.hstate = .idle) ∧
    (∃ s t : State, s.Inv ∧ step s = .next t ∧ t.hstate = .needsInput) ∧
    ∃ s t : State, s.Inv ∧ step s = .next t ∧ t.hstate = .halted :=
  ⟨⟨_, _, inv_example 0x9000 0x80 0 RegSet.zero [] (by decide), rfl, rfl⟩,
    ⟨_, _, inv_example 0x9000 0x80 0 RegSet.zero [(0x79000, 0xD3), (0x79001, 0xEF)] (by decide), rfl, rfl⟩,
    ⟨_, _, inv_example 0x9000 0x80 0 RegSet.zero [(0x79000, 0x76)] (by decide), rfl, rfl⟩⟩

theorem witness_ResolveMap :
    0x8000 ≤ (0x8000 : Word).toNat ∧ ((0x7FFF : Word).toNat < 0x8000 ∧ 128 ≤ (0x80 : Byte).toNat) ∧
    ((0x7FFF : Word).toNat < 0x8000 ∧ (0x7F : Byte).toNat < 128) ∧
    (resolve 0xFF 0xFFFF = .ram 524287 ∨ resolve 0xFF 0xFFFF = .rom 524287) ∧ (0x7FFF : Word).toNat < 0x8000 := by decide

theorem witness_FetchAfterStore :
    (resolve 0x8F 0x7FFF = .ram 524287 ∧ resolve 0x8F 0xFFFF = .ram 524287) ∧
    (resolve 0x80 0x7FFF = .ram 32767 ∧ resolve 0x80 0x8000 ≠ .ram 32767) ∧ resolve 0x00 0x7FFF = .rom 32767 ∧
    (128 ≤ (0x80 : Byte).toNat ∧ (0x80 : Byte).toNat % 16 ≠ (0xFF : Byte).toNat % 16 ∧ (0x0000 : Word).toNat < 0x8000 ∧
      (0x7FFF : Word).toNat < 0x8000) := by decide

theorem witness_ExplicitBankAccess :
    0x8000 ≤ (0x8000 : Word).toNat ∧ resolve 0x80 0x7FFF = .ram 32767 ∧ resolve 0x7F 0x7FFF = .rom 524287 := by decide

/-- The stack at the top of the window, wrapping, and across the boundary of the common area. -/
theorem witness_WordAndStackAccess :
    (resolve State.reset.bank (State.reset.sp - 1) = .ram 524287 ∧ resolve State.reset.bank (State.reset.sp - 2) = .ram 524286) ∧
    resolve 0x80 ((0x8001 : Word) - 1) = .ram 491520 ∧ resolve 0x80 ((0x8001 : Word) - 2) = .ram 32767 := by decide

theorem witness_SelectBank :
    (128 ≤ (0x80 : Byte).toNat ∧ State.reset.initMask.getLsbD ((0x80 : Byte).toNat % 16) = false) ∧
    ((0x7F : Byte).toNat < 128 ∨ State.reset.initMask.getLsbD ((0x7F : Byte).toNat % 16) = true) ∧
    ((0xFF : Byte).toNat < 128 ∨
      { State.reset with initMask := 0x8000 }.initMask.getLsbD ((0xFF : Byte).toNat % 16) = true) := by decide

theorem witness_CanonicalMemory :
    (Memory.wf { cells := [(0, 1), (524287, 255)] } ∧ 524287 < 524288) ∧ Memory.wf { cells := [] } ∧
    ∀ a, a < 524288 → ({ cells := [] } : Memory).read a = Memory.blank.read a := ⟨by decide, by decide, fun _ _ => rfl⟩

theorem witness_AccumulatorOperations :
    ((7, Instr.cpR .a, Instr.cpN 0x80, Instr.cpAtHL, Instr.cpAtIX 0x80, Instr.cpAtIY 0x80) :
      Nat × Instr × Instr × Instr × Instr × Instr) ∈
      [(0, .addR .a, .addN 0x80, .addAtHL, .addAtIX 0x80, .addAtIY 0x80),
       (1, .adcR .a, .adcN 0x80, .adcAtHL, .adcAtIX 0x80, .adcAtIY 0x80),
       (2, .subR .a, .subN 0x80, .subAtHL, .subAtIX 0x80, .subAtIY 0x80),
       (3, .sbcR .a, .sbcN 0x80, .sbcAtHL, .sbcAtIX 0x80, .sbcAtIY 0x80),
       (4, .andR .a, .andN 0x80, .andAtHL, .andAtIX 0x80, .andAtIY 0x80),
       (5, .xorR .a, .xorN 0x80, .xorAtHL, .xorAtIX 0x80, .xorAtIY 0x80),
       (6, .orR .a, .orN 0x80, .orAtHL, .orAtIX 0x80, .orAtIY 0x80),
       (7, .cpR .a, .cpN 0x80, .cpAtHL, .cpAtIX 0x80, .cpAtIY 0x80)] := by simp

theorem witness_IncrementDecrement8 :
    ((5, fun v => sub8 v 1 false, Instr.decR .a, Instr.decAtHL, Instr.decAtIX 0x80, Instr.decAtIY 0x80) :
      Nat × (Byte → Alu8) × Instr × Instr × Instr × Instr) ∈
      [(4, fun v => add8 v 1 false, Instr.incR .a, Instr.incAtHL, Instr.incAtIX 0x80, Instr.incAtIY 0x80),
       (5, fun v => sub8 v 1 false, Instr.decR .a, Instr.decAtHL, Instr.decAtIX 0x80, Instr.decAtIY 0x80)] := by simp

theorem witness_DecimalAdjust :
    { State.reset.main.f with n := false }.n = false ∧ { State.reset.main.f with n := true }.n = true := by decide

theorem witness_AccumulatorRotates :
    ((3, Instr.rra) : Nat × Instr) ∈ [(0, Instr.rlca), (1, .rrca), (2, .rla), (3, .rra)] := by decide

theorem witness_RotatesAndShifts :
    ∃ sh : Byte → Nat × Bool, (∀ v, sh v = shifted 7 v.toNat State.reset.main.f.c) ∧
      ((7, Instr.srlR .a, Instr.srlAtHL, Instr.srlAtIX 0x7F, Instr.srlAtIY 0x7F) :
        Nat × Instr × Instr × Instr × Instr) ∈
        [(0, .rlcR .a, .rlcAtHL, .rlcAtIX 0x7F, .rlcAtIY 0x7F), (1, .rrcR .a, .rrcAtHL, .rrcAtIX 0x7F, .rrcAtIY 0x7F),
         (2, .rlR .a, .rlAtHL, .rlAtIX 0x7F, .rlAtIY 0x7F), (3, .rrR .a, .rrAtHL, .rrAtIX 0x7F, .rrAtIY 0x7F),
         (4, .slaR .a, .slaAtHL, .slaAtIX 0x7F, .slaAtIY 0x7F), (5, .sraR .a, .sraAtHL, .sraAtIX 0x7F, .sraAtIY 0x7F),
         (7, .srlR .a, .srlAtHL, .srlAtIX 0x7F, .srlAtIY 0x7F)] :=
  ⟨fun v => shifted 7 v.toNat State.reset.main.f.c, fun _ => rfl, by simp⟩

theorem witness_BitTest : 0 < 8 ∧ 7 < 8 := by decide

theorem witness_BitSetReset :
    ∃ put : Byte → Byte, 7 < 8 ∧ (∀ v k, (put v).getLsbD k = if k = 7 then true else v.getLsbD k) ∧
      ((true, 0xC0, Instr.setR 7 .a, Instr.setAtHL 7, Instr.setAtIX 7 0, Instr.setAtIY 7 0) :
        Bool × Nat × Instr × Instr × Instr × Instr) ∈
        [(true, 0xC0, Instr.setR 7 .a, Instr.setAtHL 7, Instr.setAtIX 7 0, Instr.setAtIY 7 0),
         (false, 0x80, .resR 7 .a, .resAtHL 7, .resAtIX 7 0, .resAtIY 7 0)] := by
  refine ⟨fun v => v ||| 0x80#8, by decide, fun v k => ?_, by simp⟩
  rcases Nat.lt_or_ge k 8 with h | h
  · have hk : ∀ k : Fin 8, ∀ v : Byte, (v ||| 0x80#8).getLsbD k.val = if k.val = 7 then true else v.getLsbD k.val := by
      decide
    exact hk ⟨k, h⟩ v
  · have h7 : k ≠ 7 := by omega
    rw [if_neg h7, BitVec.getLsbD_of_ge _ _ h, BitVec.getLsbD_of_ge _ _ h]

/-- A relative target below zero and one past the top of the window. -/
theorem witness_ConditionsAndJumps :
    ((0xFF82 : Word) = BitVec.ofInt 16 ((State.reset.pcn 2).toNat + (0x80 : Byte).toInt)) ∧
    ((0x007F : Word) = BitVec.ofInt 16 (({ State.reset with pc := 0xFFFE }.pcn 2).toNat + (0x7F : Byte).toInt)) := by decide

theorem witness_CallsAndReturns :
    condHolds { State.reset.main.f with z := true } .z = true ∧ condHolds State.reset.main.f .z = false ∧ 7 < 8 := by decide

theorem witness_Input :
    ({ State.reset with inq := [0x41] }.inq = 0x41 :: [] ∧ State.reset.inq = [] ∧ (0x69 : Byte) ∉ [0x68, 0x6D, 0x78, 0x7C, 0xFE] ∧
      (0xFF : Byte) ∉ [0x68, 0x6D, 0x78, 0x7C, 0xFE] ∧ (0x67 : Byte) ≠ 0x68) ∧
    (((0xBA, Instr.indr, 0xFFFF, true) : Byte × Instr × Word × Bool) ∈
      [(0xA2, Instr.ini, 1, false), (0xB2, .inir, 1, true), (0xAA, .ind, 0xFFFF, false), (0xBA, .indr, 0xFFFF, true)]) := by
  decide

theorem witness_Output :
    (((0xBB, Instr.otdr, 0xFFFF, true) : Byte × Instr × Word × Bool) ∈
      [(0xA3, Instr.outi, 1, false), (0xB3, .otir, 1, true), (0xAB, .outd, 0xFFFF, false), (0xBB, .otdr, 0xFFFF, true)]) ∧
    (0xF0 : Byte) ∉ [0x68, 0x78, 0x7C, 0xEC, 0xED, 0xEE, 0xEF] := by decide

theorem witness_OutputCompletes :
    ((Instr.otdr, State.reset.fetch State.reset.hl) : Instr × Byte) ∈
      [(Instr.outPortNA 0x68, State.reset.main.a), (.outPortCR .a, State.reset.reg .a),
       (.outi, State.reset.fetch State.reset.hl), (.otir, State.reset.fetch State.reset.hl),
       (.outd, State.reset.fetch State.reset.hl), (.otdr, State.reset.fetch State.reset.hl)] ∧
    outputPort State.reset (.outPortNA 0x68) ∉ [0xEC, 0xED, 0xEE, 0xEF] ∧
    outputPort State.reset .otdr ∉ [0xEC, 0xED, 0xEE, 0xEF] ∧
    outputPort State.reset (.outPortNA 0xF0) ∉ [0xEC, 0xED, 0xEE, 0xEF] := by decide

theorem witness_BankCopy :
    State.reset.bc = 0 ∧ (State.reset.setBC 0x0001).bc ≠ 0 ∧ (State.reset.setBC 0xFFFF).bc ≠ 0 ∧
    0xFFFE < (State.reset.setBC 0xFFFF).bc.toNat := by decide

/-- The functions, and the annulment through each output instruction; a block form finds CIOIN with `B = 1` before. -/
theorem witness_HbiosConsole :
    ((hbiosBase 0x00 0 0 0 0 0).main.b = 0x00 ∧ { hbiosBase 0x00 0 0 0 0 0 with inq := [0x41] }.inq = 0x41 :: []) ∧
    ((hbiosBase 0x00 0 0 0 0 0).inq = [] ∧ (hbiosBase 0x00 0 0 0 0 0).blockingAllowed = false) ∧
    { hbiosBase 0x00 0 0 0 0 0 with blockingAllowed := true }.blockingAllowed = true ∧
    (hbiosBase 0x01 0 0 0 0 0).main.b = 0x01 ∧ (hbiosBase 0x02 0 0 0 0 0).main.b = 0x02 ∧
    (hbiosBase 0x03 0 0 0 0 0).main.b = 0x03 ∧
    (∀ i ∈ [Instr.outPortNA 0xEF, .outPortCR .a], isOutput i = true ∧ outputPort (hbiosBase 0 0xEF 0 0 0 0) i = 0xEF ∧
      outputB (hbiosBase 0 0xEF 0 0 0 0) i = 0x00) ∧
    (∀ i ∈ [Instr.outi, .otir, .outd, .otdr], isOutput i = true ∧ outputPort (hbiosBase 1 0xEF 0 0 0 0) i = 0xEF ∧
      outputB (hbiosBase 1 0xEF 0 0 0 0) i = 0x00) := by decide

theorem witness_HbiosSystem :
    ((hbiosBase 0xF0 0 0 1 0 0).main.b = 0xF0 ∧ (hbiosBase 0xF0 0 0 1 0 0).main.e = 0x01) ∧
    ((hbiosBase 0xF0 0 0 0 0 0).main.b = 0xF0 ∧ (hbiosBase 0xF0 0 0 0 0 0).main.e ≠ 0x01) ∧
    (hbiosBase 0xF1 0 0 0 0 0).main.b = 0xF1 ∧ (hbiosBase 0xF2 0x8E 0 0 0 0).main.b = 0xF2 ∧
    (hbiosBase 0xF3 0 0 0 0 0).main.b = 0xF3 ∧ (hbiosBase 0xF4 0 0x8E 1 0 0).main.b = 0xF4 ∧
    (hbiosBase 0xFA 0 0x8E 0 0x7F 0xFF).main.b = 0xFA ∧ (hbiosBase 0xFB 0 0x83 0x77 1 0).main.b = 0xFB ∧
    (hbiosBase 0xFE 0 0 0 0 0).main.b = 0xFE := by decide

theorem witness_HbiosDiskSeekAndCapacity :
    ((hbiosBase 0x14 0x10 0 0 0 0).main.b ∈ [0x12, 0x13, 0x14, 0x1A] ∧ 16 ≤ (hbiosBase 0x14 0x10 0 0 0 0).main.c.toNat) ∧
    ((hbiosBase 0x1A 0x0F 0 0 0 0).main.c.toNat = (15 : Fin 16).val ∧
      ((hbiosBase 0x1A 0x0F 0 0 0 0).unitAt 15).present = false) ∧
    ((oneSector (hbiosBase 0x12 0 0xFF 0xFF 0xFF 0xFF) 0).main.c.toNat = (0 : Fin 16).val ∧
      ((oneSector (hbiosBase 0x12 0 0xFF 0xFF 0xFF 0xFF) 0).unitAt 0).present = true ∧
      (oneSector (hbiosBase 0x12 0 0xFF 0xFF 0xFF 0xFF) 0).main.b = 0x12) ∧
    (oneSector (hbiosBase 0x1A 0 0 0 0 0) 0).main.b = 0x1A := by decide

/-- Function, count, image size, position, sectors done: no sector, all, fewer, none in range, the last position. -/
theorem witness_HbiosDiskTransfer :
    ∀ x ∈ ([(0x13, 0x00, 1300, 0, 0), (0x14, 0x02, 1300, 0, 2), (0x13, 0x03, 1300, 0, 2), (0x14, 0xFF, 1300, 1, 1),
        (0x14, 0x01, 1300, 2, 0), (0x13, 0xFF, 1300, 0xFFFFFFFF, 0), (0x14, 0x03, 2199023255040, 0xFFFFFFFE, 1)] :
        List (Byte × Byte × Nat × BitVec 32 × Nat)),
      let t := withImage (hbiosBase x.1 0 0 x.2.1 0x90 0) x.2.2.1 x.2.2.2.1
      t.main.c.toNat = (0 : Fin 16).val ∧ (t.unitAt 0).present = true ∧ x.2.2.2.1.toNat = (t.unitAt 0).position.toNat ∧
      x.2.2.2.2 = min t.main.e.toNat ((t.unitAt 0).data.size / 512 - x.2.2.2.1.toNat) ∧
      x.2.2.2.1.toNat + x.2.2.2.2 < 4294967296 ∧ (t.main.b = 0x13 ∨ t.main.b = 0x14) := by decide

theorem witness_HbiosExtFrame :
    (hbiosBase 0x04 0 0 0 0 0).main.b ∉
      [0x00, 0x01, 0x02, 0x03, 0x12, 0x13, 0x14, 0x1A, 0xF0, 0xF1, 0xF2, 0xF3, 0xF4, 0xFA, 0xFB, 0xFE] ∧
    (hbiosBase 0xFF 0 0 0 0 0).main.b ∉
      [0x00, 0x01, 0x02, 0x03, 0x12, 0x13, 0x14, 0x1A, 0xF0, 0xF1, 0xF2, 0xF3, 0xF4, 0xFA, 0xFB, 0xFE] ∧
    ((hbiosBase 0x11 0 0 0 0 0).main.b = 0x11 ∧ (hbiosBase 0x11 0 0 0 0 0).main.b ∉
      [0x00, 0x01, 0x02, 0x03, 0x12, 0x13, 0x14, 0x1A, 0xF0, 0xF1, 0xF2, 0xF3, 0xF4, 0xFA, 0xFB, 0xFE] ∧
      (((hbiosBase 0x11 0 0 0 0 0).setUnit 15 { DiskUnit.absent with dirty := true }).unitAt 15).dirty = true) ∧
    ∀ s : State, { s with sp := 0x1234 }.hbiosArgs = s.hbiosArgs :=
  ⟨by decide, by decide, by decide, fun _ => rfl⟩

theorem witness_BlockTransfer :
    ((0xB8, Instr.lddr, 0xFFFF, true) : Byte × Instr × Word × Bool) ∈
      [(0xA0, Instr.ldi, 1, false), (0xB0, .ldir, 1, true), (0xA8, .ldd, 0xFFFF, false), (0xB8, .lddr, 0xFFFF, true)] := by
  decide

theorem witness_BlockSearch :
    ((0xB9, Instr.cpdr, 0xFFFF, true) : Byte × Instr × Word × Bool) ∈
      [(0xA1, Instr.cpi, 1, false), (0xB1, .cpir, 1, true), (0xA9, .cpd, 0xFFFF, false), (0xB9, .cpdr, 0xFFFF, true)] := by
  decide

theorem witness_PowerOn :
    ∃ s, s = State.powerOn RegSet.zero RegSet.zero 0xFFFF 0xFFFF 0xFFFF { cells := [(0, 0xC3)] } { cells := [] } true
      (Vector.replicate 16 (DiskUnit.attach [0x01] 7)) := ⟨_, rfl⟩

theorem witness_HostReset : ∃ s : State, s.Inv ∧ s.bank = 0x8E :=
  ⟨_, inv_example 0x9001 0x8E 0x4001 RegSet.zero [(0x79000, 0x76)] (by decide), rfl⟩

theorem witness_LoadRom :
    (0 < [(0xF3 : Byte)].length ∧ [(0xF3 : Byte)].length ≤ 524288) ∧
    (∃ image : List Byte, image.length = 524288) ∧
    (0 < [(0xF3 : Byte)].length ∧ 0 ≠ 0x0112) ∧ Memory.wf { cells := [] } ∧ ∃ s : State, s.Inv :=
  ⟨by decide, ⟨List.replicate 524288 0, List.length_replicate⟩, by decide, by decide, _, inv_example 0x9001 0x8E 0x4001 RegSet.zero [(0x79000, 0x76)] (by decide)⟩

end Sys2Proof.Tests
end

section
/-! SUPPORT. The state family (10_state): the register file, indexed addresses, conditions and jumps, what writes no bit
of `F`, and who writes the special registers. -/

namespace Sys2Proof.Machine

/-! ### The halted step -/

/-- Settles O6: the halted test is the first thing a step does (10 R32). -/
theorem haltedStepDoesNothing : Obligations.HaltedStepDoesNothing := fun _ h => if_pos h

/-! ### Indexed addresses -/

/-- Settles O24: `(IX+d)`, `(IY+d)` and a relative target are one sum, that of `addSigned_eq`. -/
theorem indexedAddress : Obligations.IndexedAddress := fun s d base =>
  ⟨addSigned_eq s.ix d, addSigned_eq s.iy d, addSigned_eq base d⟩

/-! ### The register file -/

theorem Flags.getLsbD_toByte (f : Flags) :
    f.toByte.getLsbD 7 = f.s ∧ f.toByte.getLsbD 6 = f.z ∧ f.toByte.getLsbD 5 = f.y ∧ f.toByte.getLsbD 4 = f.h ∧
    f.toByte.getLsbD 3 = f.x ∧ f.toByte.getLsbD 2 = f.pv ∧ f.toByte.getLsbD 1 = f.n ∧ f.toByte.getLsbD 0 = f.c := by
  have h := Flags.ofByte_toByte f
  exact ⟨congrArg (·.s) h, congrArg (·.z) h, congrArg (·.y) h, congrArg (·.h) h, congrArg (·.x) h, congrArg (·.pv) h,
    congrArg (·.n) h, congrArg (·.c) h⟩

/-- Settles O23: the pairs through `mkWord_toNat` and the halves of a word, the bits of `F` through the inverse pair
`Flags.toByte`, `Flags.ofByte`, the registers by their codes. -/
theorem registerFile : Obligations.RegisterFile := by
  refine ⟨fun s => ⟨mkWord_toNat _ _, mkWord_toNat _ _, mkWord_toNat _ _, mkWord_toNat _ _⟩, ?written,
    Flags.getLsbD_toByte, ?registers, fun s r v => ⟨rfl, rfl⟩, fun s => ?reads, fun s v => ?writes, rfl, rfl, rfl, rfl, rfl⟩
  case written =>
    intro s v
    rw [← highByte_eq, ← lowByte_eq]
    exact ⟨rfl, rfl, rfl, State.af_setAF s v, rfl⟩
  case registers =>
    exact fun x r v => ⟨fun r' => RegSet.get_set x r r' v, RegSet.set_f x r v, rfl, rfl, rfl, rfl, rfl, rfl, rfl⟩
  case reads => exact ⟨⟨rfl, rfl, rfl, rfl⟩, ⟨rfl, rfl, rfl, rfl⟩, ⟨rfl, rfl, rfl, rfl⟩, ⟨rfl, rfl, rfl, rfl⟩⟩
  case writes => exact ⟨⟨rfl, rfl, rfl, rfl⟩, ⟨rfl, rfl, rfl, rfl⟩⟩

/-! ### The port level: what it leaves alone -/

/-- An annulled step changes `HSTATE` at most (49 R521). -/
theorem State.annul_eq (s : State) : s.annul = { s with hstate := s.annul.hstate } := by
  unfold State.annul; split <;> rfl

theorem PortFrame.main_f {t u : State} (h : PortFrame t u) : u.main.f = t.main.f := congrArg (·.main.f) h.1

theorem PortFrame.plain {t u : State} (h : PortFrame t u) : Plain t u where
  iff1   := congrArg (·.iff1) h.1
  iff2   := congrArg (·.iff2) h.1
  im     := congrArg (·.im) h.1
  iReg   := congrArg (·.iReg) h.1
  rReg   := congrArg (·.rReg) h.1
  icount := congrArg (·.icount) h.1
  shadow := congrArg (·.shadow) h.1

theorem Plain.trans {s t u : State} (h : Plain s t) (h' : Plain t u) : Plain s u where
  iff1   := h'.iff1.trans h.iff1
  iff2   := h'.iff2.trans h.iff2
  im     := h'.im.trans h.im
  iReg   := h'.iReg.trans h.iReg
  rReg   := h'.rReg.trans h.rReg
  icount := h'.icount.trans h.icount
  shadow := h'.shadow.trans h.shadow

/-- The state an output instruction hands to `PortOut` (46 R390 item 2) is the fetched one, less what `Plain` does not
speak of. -/
theorem exec_output_plain {i : Instr} (ho : isOutput i = true) (s : State) :
    ∃ t v, exec i s = portOut s t (outputPort s i) v ∧ Plain (s.retire i.length i.opcodeFetches) t := by
  cases i
  case outPortNA n => exact ⟨_, _, rfl, Plain.rfl⟩
  case outPortCR src => exact ⟨_, _, rfl, Plain.rfl⟩
  case outi => exact ⟨_, _, rfl, Plain.rfl.countIo _⟩
  case otir => exact ⟨_, _, rfl, (Plain.rfl.countIo _).repeatWhile _ _⟩
  case outd => exact ⟨_, _, rfl, Plain.rfl.countIo _⟩
  case otdr => exact ⟨_, _, rfl, (Plain.rfl.countIo _).repeatWhile _ _⟩
  all_goals exact absurd ho Bool.false_ne_true

/-- An output instruction that completes is an annulled step, or leaves alone what `Plain` says, once fetched. -/
theorem exec_output_next {i : Instr} (ho : isOutput i = true) {s t : State} (h : exec i s = .next t) :
    t = s.annul ∨ Plain (s.retire i.length i.opcodeFetches) t := by
  obtain ⟨u, v, he, hu⟩ := exec_output_plain ho s
  rcases portOut_next (he ▸ h) with ⟨-, ht, -⟩ | hf
  · exact .inl ht
  · exact .inr (hu.trans hf.plain)

/-! ### Who writes the special registers -/

/-- `t` agrees with `s` in the interrupt state, `I` and the shadow set: `Plain` without the two pieces of state every
fetch steps. -/
def SpecialKept (s t : State) : Prop :=
  t.iff1 = s.iff1 ∧ t.iff2 = s.iff2 ∧ t.im = s.im ∧ t.iReg = s.iReg ∧ t.shadow = s.shadow

theorem Plain.specialKept {s t : State} {len m1 : Nat} (h : Plain (s.retire len m1) t) : SpecialKept s t :=
  ⟨h.iff1, h.iff2, h.im, h.iReg, h.shadow⟩

theorem specialKept_annul (s : State) : SpecialKept s s.annul := by
  rw [State.annul_eq]; exact ⟨rfl, rfl, rfl, rfl, rfl⟩

theorem exec_specialKept {i : Instr} (hw : writesSpecial i = false) {s t : State} (h : exec i s = .next t) :
    SpecialKept s t := by
  cases ho : isOutput i
  case false =>
    obtain ⟨u, len, m1, he, hu⟩ := exec_plain ho hw s
    obtain ⟨rfl⟩ := he ▸ h
    exact hu.specialKept
  case true =>
    rcases exec_output_next ho h with rfl | hp
    · exact specialKept_annul s
    · exact hp.specialKept

/-- Settles O12: an instruction outside `writesSpecial` keeps all five; each of the ten inside writes its own and, by
its meaning, keeps the others. -/
theorem specialRegisterWriters : Obligations.SpecialRegisterWriters := by
  intro i s t h
  cases hw : writesSpecial i
  case false =>
    obtain ⟨h1, h2, him, hi, hs⟩ := exec_specialKept hw h
    exact ⟨fun _ _ _ => h1, fun _ _ => h2, fun _ _ _ => him, fun _ => hi, fun _ _ => hs⟩
  case true =>
    cases i
    case di | ei | retn | im0 | im1 | im2 | ldIA | ldRA | exAFAF | exx =>
      obtain ⟨rfl⟩ := h
      simp [returnFrom, jumpTo]
    all_goals exact absurd hw Bool.false_ne_true

/-! ### What writes no bit of `F` -/

@[simp] theorem State.setPairDD_main_f (s : State) (dd : PairDD) (v : Word) : (s.setPairDD dd v).main.f = s.main.f := by
  cases dd <;> rfl

theorem State.setPairQQ_main_f (s : State) {qq : PairQQ} (h : qq ≠ .af) (v : Word) :
    (s.setPairQQ qq v).main.f = s.main.f := by
  cases qq
  case af => exact absurd rfl h
  all_goals rfl

theorem ite_main_f {s t u : State} (c : Prop) [Decidable c] (ht : t.main.f = s.main.f) (hu : u.main.f = s.main.f) :
    (if c then t else u).main.f = s.main.f := by
  split
  · exact ht
  · exact hu

/-- `PortOut` keeps `F`, HBIOS functions included: an annulled step changes `HSTATE` alone, and `PortFrame` has `F`. -/
theorem main_f_of_portOut {s t : State} {len m1 : Nat} {p v : Byte} (h : portOut s (s.retire len m1) p v = .next t) :
    t.main.f = s.main.f := by
  rcases portOut_next h with ⟨-, rfl, -⟩ | hf
  · rw [State.annul_eq]
  · exact hf.main_f

/-- Settles O14: the two outputs through the port level, a register or a pair written through its own law of `F`, a jump
by whether it is taken; the other meanings do not name `F`. -/
theorem flagsKept : Obligations.FlagsKept := by
  intro i s t hk h
  cases i
  case outPortNA | outPortCR => exact main_f_of_portOut h
  -- one of the seven registers written, then a pair
  case ldRR | ldRN | ldRAtHL | ldRAtIX | ldRAtIY | ldAAtBC | ldAAtDE | ldAAtNN | setR | resR | inAPortN =>
    obtain ⟨rfl⟩ := h
    exact RegSet.set_f _ _ _
  case ldDDNN | ldDDAtNN | incSS | decSS =>
    obtain ⟨rfl⟩ := h
    exact State.setPairDD_main_f _ _ _
  case popQQ qq =>
    obtain ⟨rfl⟩ := h
    exact State.setPairQQ_main_f _ (by rintro rfl; exact Bool.false_ne_true hk) _
  -- taken or not taken
  case jpCcNN | jrCE | jrNcE | jrZE | jrNzE | djnzE | callCcNN | retCc =>
    obtain ⟨rfl⟩ := h
    exact ite_main_f _ rfl rfl
  -- the rest: the meaning names what it writes, and `F` is not there
  case ldAtHLR | ldAtIXR | ldAtIYR | ldAtHLN | ldAtIXN | ldAtIYN | ldAtBCA | ldAtDEA | ldAtNNA | ldIA | ldRA | ldIXNN
    | ldIYNN | ldHLAtNN | ldIXAtNN | ldIYAtNN | ldAtNNHL | ldAtNNDD | ldAtNNIX | ldAtNNIY | ldSPHL | ldSPIX | ldSPIY
    | pushQQ | pushIX | pushIY | popIX | popIY | incIX | incIY | decIX | decIY | setAtHL | setAtIX | setAtIY | resAtHL
    | resAtIX | resAtIY | jpNN | jrE | jpHL | jpIX | jpIY | callNN | ret | reti | retn | rst | exDEHL | exx | exAtSPHL
    | exAtSPIX | exAtSPIY | nop | halt | di | ei | im0 | im1 | im2 =>
    obtain ⟨rfl⟩ := h
    rfl
  all_goals exact absurd hk Bool.false_ne_true

/-! ### Conditions and jumps -/

/-- An encoding of an opcode byte and a word, low byte first (30 R127). -/
theorem decodesTo_word {b0 : Byte} {i : Word → Instr}
    (h : ∀ b1 b2 b3, decode4 b0 b1 b2 b3 = .instr (i (mkWord b2 b1)) 3) (nn : Word) :
    decodesTo [b0, byteOf nn.toNat, byteOf (nn.toNat / 256)] (i nn) :=
  decodesTo_three fun b3 => by rw [h, mkWord_byteOf]

theorem jumpTo_retire (s : State) (len m1 : Nat) (a : Word) :
    jumpTo (s.retire len m1) a = { fetched s len m1 with pc := a } := by
  rw [retire_eq]; rfl

theorem jumpRelative_retire (s : State) (len m1 : Nat) (e : Byte) :
    jumpRelative (s.retire len m1) e =
      { fetched s len m1 with pc := BitVec.ofInt 16 ((s.pcn len).toNat + e.toInt) } := by
  rw [jumpRelative, retire_eq, addSigned_eq]; rfl

/-- A jump taken under a condition, else the instruction falls through to `pcn`. -/
theorem ite_jumpTo_retire (c : Prop) [Decidable c] (s : State) (len m1 : Nat) (a : Word) :
    (if c then jumpTo (s.retire len m1) a else s.retire len m1) =
      { fetched s len m1 with pc := if c then a else s.pcn len } := by
  rw [jumpTo_retire, retire_eq]; split <;> rfl

theorem ite_jumpRelative_retire (c : Prop) [Decidable c] (s : State) (len m1 : Nat) (e : Byte) :
    (if c then jumpRelative (s.retire len m1) e else s.retire len m1) =
      { fetched s len m1 with
        pc := if c then BitVec.ofInt 16 ((s.pcn len).toNat + e.toInt) else s.pcn len } := by
  rw [jumpRelative_retire, retire_eq]; split <;> rfl

theorem sub_one_eq_byteOf (b : Byte) : b - 1 = byteOf (b.toNat + 255) := by
  apply BitVec.eq_of_toNat_eq; simp [byteOf, BitVec.toNat_sub]; omega

theorem sub_one_bne_zero (b : Byte) : (b - 1 != 0) = decide (b.toNat ≠ 1) := by
  revert b; decide

/-- `DJNZ` (45 R371): `B` counted down, and the jump unless that made it 0. -/
theorem exec_djnzE (e : Byte) (s : State) :
    exec (.djnzE e) s = .next { fetched s 2 1 with
      main := { s.main with b := byteOf (s.main.b.toNat + 255) }
      pc := if s.main.b.toNat = 1 then s.pcn 2 else BitVec.ofInt 16 ((s.pcn 2).toNat + e.toInt) } := by
  have counted : (s.retire 2 1).setReg .b (s.main.b - 1) =
      { fetched s 2 1 with main := { s.main with b := byteOf (s.main.b.toNat + 255) } } := by
    rw [retire_eq, sub_one_eq_byteOf]; rfl
  show Host.Outcome.next (if s.main.b - 1 != 0 then jumpRelative ((s.retire 2 1).setReg .b (s.main.b - 1)) e
    else (s.retire 2 1).setReg .b (s.main.b - 1)) = _
  rw [counted, jumpRelative, addSigned_eq, sub_one_bne_zero]
  by_cases h : s.main.b.toNat = 1
  · simp [h, fetched]
  · simp [h, jumpTo, fetched]

/-- Settles O43: the conditions by their codes, the jumps by `jumpTo` and `jumpRelative` on the fetched state. -/
theorem conditionsAndJumps : Obligations.ConditionsAndJumps := by
  refine ⟨fun f cc => by cases cc <;> simp [condHolds, Cond.code], ?_⟩
  rintro cc nn e s rel rfl
  refine ⟨⟨decodesTo_word (fun _ _ _ => rfl) nn, congrArg _ (jumpTo_retire s 3 1 nn)⟩,
    ⟨?jpCc, congrArg _ (ite_jumpTo_retire _ s 3 1 nn)⟩,
    ⟨decodesTo_two fun _ _ => rfl, congrArg _ (jumpRelative_retire s 2 1 e)⟩,
    ⟨decodesTo_two fun _ _ => rfl, congrArg _ (ite_jumpRelative_retire _ s 2 1 e)⟩,
    ⟨decodesTo_two fun _ _ => rfl, ?jrNc⟩,
    ⟨decodesTo_two fun _ _ => rfl, congrArg _ (ite_jumpRelative_retire _ s 2 1 e)⟩,
    ⟨decodesTo_two fun _ _ => rfl, ?jrNz⟩,
    ⟨decodesTo_one fun _ _ _ => rfl, congrArg _ (jumpTo_retire s 1 1 s.hl)⟩,
    ⟨decodesTo_two fun _ _ => rfl, congrArg _ (jumpTo_retire s 2 2 s.ix)⟩,
    ⟨decodesTo_two fun _ _ => rfl, congrArg _ (jumpTo_retire s 2 2 s.iy)⟩,
    ⟨decodesTo_two fun _ _ => rfl, exec_djnzE e s⟩⟩
  case jpCc =>
    cases cc <;> exact decodesTo_word (i := .jpCcNN _) (fun _ _ _ => rfl) nn
  case jrNc =>
    simp only [← Bool.not_eq_true']
    exact congrArg _ (ite_jumpRelative_retire _ s 2 1 e)
  case jrNz =>
    simp only [← Bool.not_eq_true']
    exact congrArg _ (ite_jumpRelative_retire _ s 2 1 e)

end Sys2Proof.Machine
end

section
/-! SUPPORT. The memory family (20_memory): the window, stores and explicit-bank access, words and the stack, bank
selects, the canonical form, and that no step writes the ROM. -/

namespace Sys2Proof.Machine

/-! ### The ROM -/

theorem PortFrame.rom {t u : State} (h : PortFrame t u) : u.rom = t.rom := congrArg (·.rom) h.1

/-- No instruction writes the ROM: an output instruction by the frame of the port level or by its annulment, `HALT` by
its event, every other by `Quiet`. -/
theorem exec_rom {i : Instr} {s t : State} (h : exec i s = .next t) : t.rom = s.rom := by
  cases ho : isOutput i
  case true =>
    obtain ⟨u, v, he, hu, -, -, -⟩ := exec_output ho s
    rcases portOut_next (he ▸ h) with ⟨-, rfl, -⟩ | hf
    · rw [State.annul_eq]
    · exact hf.rom.trans hu.rom
  case false =>
    by_cases hh : i = .halt
    · subst hh; obtain ⟨rfl⟩ := h; rfl
    · obtain ⟨u, he, hu⟩ := exec_quiet ho hh s
      obtain ⟨rfl⟩ := he ▸ h
      exact hu.rom

/-- What a step can be: none at all in a halted machine, an executed instruction, or the unimplemented-opcode event. -/
theorem step_next {s t : State} (h : step s = .next t) :
    t = s ∨ (∃ i, exec i s = .next t) ∨ ∃ op, t = s.raiseUnimplemented op := by
  unfold step at h
  split at h
  · obtain ⟨rfl⟩ := h; exact .inl rfl
  · split at h
    · exact .inr (.inl ⟨_, h⟩)
    · obtain ⟨rfl⟩ := h; exact .inr (.inr ⟨_, rfl⟩)

/-- Settles O11: an executed instruction by `exec_rom`; the other steps do not name `rom`. -/
theorem romImmutable : Obligations.RomImmutable := by
  intro s t h
  rcases step_next h with rfl | ⟨i, hi⟩ | ⟨op, rfl⟩
  · rfl
  · exact exec_rom hi
  · rfl

/-! ### The window -/

/-- Under bank byte `0x8F` the low half of the window is the common area (20 R71). -/
theorem resolve_low_eq_high {a : Word} (h : a.toNat < 0x8000) : resolve 0x8F a = resolve 0x8F (a + 0x8000) := by
  have ha : (a + 0x8000).toNat = a.toNat + 0x8000 := by bv_omega
  rw [resolve_ramBank h (by decide), resolve_common _ (by omega), ha, Nat.add_sub_cancel]
  rfl

/-- Settles O17: the three areas by their laws, the bound by `resolve_lt`. -/
theorem resolveMap : Obligations.ResolveMap :=
  ⟨fun b _ h => resolve_common b h, fun _ _ h hb => resolve_ramBank h hb, fun _ _ h hb => resolve_romBank h hb,
    fun _ _ _ h => resolve_lt h, fun _ h => resolve_low_eq_high h⟩

/-- At and above `0x8000` the bank byte does not matter: Invariant B (20 R73). -/
theorem resolve_common_congr {a : Word} (h : 0x8000 ≤ a.toNat) (b b' : Byte) : resolve b a = resolve b' a := by
  rw [resolve_common b h, resolve_common b' h]

/-- Below `0x8000`, a RAM bank shares no byte with a bank of another index. -/
theorem resolve_ne_of_bankIndex_ne {b b' : Byte} {a a' : Word} (hb : 128 ≤ b.toNat)
    (hne : b.toNat % 16 ≠ b'.toNat % 16) (ha : a.toNat < 0x8000) (ha' : a'.toNat < 0x8000) :
    resolve b' a' ≠ resolve b a := by
  rw [resolve_ramBank ha hb]
  by_cases hb' : 128 ≤ b'.toNat
  · rw [resolve_ramBank ha' hb', ne_eq, Phys.ram.injEq]; omega
  · rw [resolve_romBank ha' (by omega)]; exact Phys.noConfusion

/-! ### Stores -/

/-- A write that resolves to ROM is discarded (20 R74). -/
theorem writeBank_of_rom (s : State) {b : Byte} {a : Word} {k : Nat} (h : resolve b a = .rom k) (v : Byte) :
    s.writeBank b a v = s := by
  simp only [State.writeBank, h, storeAt]

/-- A write is not seen at any other physical byte. -/
theorem readBank_writeBank_of_ne (s : State) {b b' : Byte} {a a' : Word} (h : resolve b' a' ≠ resolve b a) (v : Byte) :
    (s.writeBank b a v).readBank b' a' = s.readBank b' a' := by
  simp only [State.readBank]
  cases hr : resolve b' a' with
  | rom k => rfl
  | ram k =>
    rw [hr] at h
    exact (read_storeAt _ _ _ _).trans (if_neg h.symm)

/-- Settles O18: the stored byte by `fetch_store_ram`, every other byte and the isolation of banks by
`readBank_writeBank_of_ne`. -/
theorem fetchAfterStore : Obligations.FetchAfterStore := by
  refine ⟨fun s a => rfl, fun s a a' v => ⟨⟨_, rfl, ramAfter_store s a v⟩, ?same, ?other, ?rom⟩, ?isolated⟩
  case same => exact fun k h h' => (fetch_store_ram s a a' v h').trans (if_pos h)
  case other => exact fun k h h' => readBank_writeBank_of_ne s (h ▸ h') v
  case rom => exact fun k h => writeBank_of_rom s h v
  case isolated =>
    exact fun s b b' a a' v hb hne ha ha' => readBank_writeBank_of_ne s (resolve_ne_of_bankIndex_ne hb hne ha ha') v

/-- Settles O19: `read_storeAt` for the byte written, `resolve_common_congr` for Invariant B. -/
theorem explicitBankAccess : Obligations.ExplicitBankAccess := by
  refine fun s b b' a v => ⟨rfl, fun k h => writeBank_of_rom s h v, fun h => ?common,
    ⟨_, rfl, fun k => read_storeAt _ v s.ram k⟩⟩
  case common =>
    have hbank := resolve_common_congr h b s.bank
    have hother := resolve_common_congr h b' b
    simp only [State.readBank, State.fetch, State.writeBank, State.store, hbank, hother, and_self]

/-! ### Words and the stack -/

/-- The two bytes of a word on the stack are two bytes of memory whatever `SP` is. -/
theorem resolve_stack_ne {b : Byte} {sp : Word} {k : Nat} (hk : resolve b (sp - 2) = .ram k) :
    resolve b (sp - 1) ≠ .ram k := by
  intro h
  have h1 := resolve_mod h
  have h2 := resolve_mod hk
  bv_omega

theorem State.push16_eq (s : State) (v : Word) :
    s.push16 v = { s with ram := (s.push16 v).ram, sp := s.sp - 2 } := by
  simp only [State.push16, State.store, State.writeBank]

/-- A push shows as its two stores do: the new `SP` is no memory. -/
theorem fetch_push16 (s : State) (a v : Word) :
    (s.push16 v).fetch a = ((s.store (s.sp - 1) (highByte v)).store (s.sp - 2) (lowByte v)).fetch a := rfl

/-- A word pushed where both its bytes lie in RAM is popped (20 R82). -/
theorem top16_push16 (s : State) (v : Word) {j k : Nat} (hj : resolve s.bank (s.sp - 1) = .ram j)
    (hk : resolve s.bank (s.sp - 2) = .ram k) : (s.push16 v).top16 = v := by
  have hlow : (s.push16 v).fetch (s.sp - 2) = lowByte v := by
    rw [fetch_push16, fetch_store_ram (s.store _ _) _ _ _ hk, State.store_bank, if_pos hk]
  have hhigh : (s.push16 v).fetch (s.sp - 1) = highByte v := by
    have hne : ¬ resolve s.bank (s.sp - 2) = .ram j := fun h => resolve_stack_ne h hj
    rw [fetch_push16, fetch_store_ram (s.store _ _) _ _ _ hj, State.store_bank, if_neg hne, fetch_store_ram _ _ _ _ hj,
      if_pos hj]
  have hsp : s.sp - 2 + 1 = s.sp - 1 := by bv_omega
  rw [State.top16, State.fetch16, State.push16_sp, hsp, hlow, hhigh, mkWord_high_low]

/-- Settles O20: the bytes stored by `ramAfter_store16` and `ramAfter_push16`, the pop by `top16_push16`. -/
theorem wordAndStackAccess : Obligations.WordAndStackAccess := by
  refine ⟨fun s a => ?word, fun s a v => ⟨_, rfl, ramAfter_store16 s a v⟩,
    fun s v => ⟨_, State.push16_eq s v, ramAfter_push16 s v⟩, fun s => ⟨rfl, rfl⟩,
    fun s v j k hj hk => ⟨top16_push16 s v hj hk, ?sp⟩⟩
  case word => rw [State.fetch16, mkWord_toNat, Nat.add_comm]
  case sp => exact BitVec.sub_add_cancel s.sp 2

/-! ### Bank selects -/

theorem firstSelect_eq (s : State) (b : Byte) :
    s.firstSelect b = (decide (128 ≤ b.toNat) && !s.initMask.getLsbD (b.toNat % 16)) := by
  rw [State.firstSelect, getLsbD_seven, bankIndex]

theorem selectBank_first {s : State} {b : Byte} (h : s.firstSelect b = true) :
    s.selectBank b = { s with
      bank := b, ram := headCopied s.rom s.ram (bankIndex b * Config.bankSize), initMask := s.initMask ||| initBit b } := by
  simp only [State.selectBank, h, ↓reduceIte]

theorem selectBank_again {s : State} {b : Byte} (h : s.firstSelect b = false) :
    s.selectBank b = { s with bank := b } := by
  simp [State.selectBank, h]

/-- Settles O21: a select by whether it is the first of a RAM bank, the head copied by `read_headCopied`. -/
theorem selectBank : Obligations.SelectBank := by
  refine ⟨fun s b hb hm => ⟨_, selectBank_first ?first, fun k => read_headCopied _ _ _ k⟩,
    fun s b h => selectBank_again ?again, fun s => ⟨_, rfl, Memory.read_blank⟩⟩
  case first => simp [firstSelect_eq, hb, hm]
  case again =>
    rw [firstSelect_eq]
    rcases h with hb | hm
    · simp [hb]
    · simp [hm]

/-! ### The canonical form -/

theorem readCells_of_forall_ne {a : Nat} {l : List Host.Cell} (h : ∀ c ∈ l, c.1 ≠ a) : readCells a l = Memory.fill := by
  induction l with
  | nil => rfl
  | cons d rest ih =>
    rw [readCells, if_neg (h d List.mem_cons_self)]
    exact ih fun c hc => h c (List.mem_cons_of_mem _ hc)

/-- A memory in canonical form reads as `Memory.fill` past its size. -/
theorem Memory.read_of_wfBelow {n a : Nat} {m : Memory} (h : m.wfBelow n) (ha : n ≤ a) : m.read a = Memory.fill :=
  readCells_of_forall_ne fun c hc => by have := (h.2 c hc).1; omega

/-- Settles O22: the laws of one memory; past the size two canonical memories read alike anyway. -/
theorem canonicalMemory : Obligations.CanonicalMemory := by
  refine ⟨Memory.read_write, fun m a v h ha => Memory.wfBelow_write h ha v,
    fun m m' h h' hr => Memory.eq_of_read h h' fun a => ?_⟩
  by_cases ha : a < 524288
  · exact hr a ha
  · rw [Memory.read_of_wfBelow h (Nat.le_of_not_lt ha), Memory.read_of_wfBelow h' (Nat.le_of_not_lt ha)]

end Sys2Proof.Machine
end

section
/-! SUPPORT. The encoding family (30_encoding): which encodings the decoder refuses, table by table, and that a step runs
the instruction at `PC`. -/

namespace Sys2Proof

/-! ### The byte a refusal reports -/

/-- The byte reported where decoding finds no instruction (30 R121, R128). -/
def Decoded.refused : Decoded → Option Byte
  | .instr _ _ => none
  | .unimplemented op _ => some op

theorem Decoded.refused_eq_some {d : Decoded} {op : Byte} : d.refused = some op ↔ ∃ n, d = .unimplemented op n := by
  cases d with
  | instr i len => exact ⟨nofun, nofun⟩
  | unimplemented op' seen => simp [Decoded.refused]

/-! ### The main table (30 R130): only the four prefix bytes are no instruction -/

theorem refused_decodeMain0 (b n : Byte) (nn : Word) : (decodeMain0 b n nn).refused = none := by
  unfold decodeMain0
  split <;> split <;> rfl

theorem refused_decodeMain1 (b : Byte) : (decodeMain1 b).refused = none := by
  unfold decodeMain1
  split <;> rfl

theorem refused_decodeMain2 (b : Byte) : (decodeMain2 b).refused = none := by
  unfold decodeMain2
  split <;> rfl

/-! ### Walks over one opcode byte

Which opcode bytes a table refuses is no matter of the operand bytes, so these stay free and the walk is over the 256
values of the opcode byte. -/

theorem refused_decodeMain3 (n : Byte) (nn : Word) : ∀ b : Byte,
    fieldX b ∉ [0, 1, 2] → b ∉ [0xCB, 0xED, 0xDD, 0xFD] → (decodeMain3 b n nn).refused = none :=
  of_decide_eq_true rfl

/-- The second bytes the `CB` table leaves out (30 R128, R131). -/
abbrev UnimplementedCB (b : Byte) : Prop := 0x30 ≤ b.toNat ∧ b.toNat ≤ 0x37

theorem refused_decodeCB : ∀ b : Byte, (decodeCB b).refused = if UnimplementedCB b then some b else none := by
  decide

/-- The second bytes the `ED` table leaves out (30 R128, R132). -/
abbrev UnimplementedED (b : Byte) : Prop :=
  b.toNat < 0x40 ∨
  b.toNat ∈ [0x4C, 0x4E, 0x54, 0x55, 0x5C, 0x5D, 0x64, 0x65, 0x66, 0x6C, 0x6D, 0x6E, 0x70, 0x71, 0x74, 0x75,
    0x76, 0x77, 0x7C, 0x7D, 0x7E, 0x7F] ∨
  (0x80 ≤ b.toNat ∧ b.toNat ≤ 0x9F) ∨ (0xA4 ≤ b.toNat ∧ b.toNat ≤ 0xA7) ∨
  (0xAC ≤ b.toNat ∧ b.toNat ≤ 0xAF) ∨ (0xB4 ≤ b.toNat ∧ b.toNat ≤ 0xB7) ∨
  (0xBC ≤ b.toNat ∧ b.toNat ≤ 0xBF) ∨ 0xC0 ≤ b.toNat

theorem refused_decodeED (nn : Word) : ∀ b : Byte,
    (decodeED b nn).refused = if UnimplementedED b then some b else none :=
  of_decide_eq_true rfl

/-- The second bytes but `CB` that the `DD` and `FD` tables leave out: all but the 39 of 30_encoding section 5.4. -/
abbrev UnimplementedXY (b : Byte) : Prop :=
  b.toNat ∉ [0x09, 0x19, 0x21, 0x22, 0x23, 0x29, 0x2A, 0x2B, 0x34, 0x35, 0x36, 0x39, 0x46, 0x4E, 0x56, 0x5E, 0x66,
    0x6E, 0x70, 0x71, 0x72, 0x73, 0x74, 0x75, 0x77, 0x7E, 0x86, 0x8E, 0x96, 0x9E, 0xA6, 0xAE, 0xB6, 0xBE, 0xE1, 0xE3,
    0xE5, 0xE9, 0xF9]

theorem refused_decodeXY (k : Index) (b2 b3 : Byte) : ∀ b : Byte, b ≠ 0xCB →
    (decodeXY k b b2 b3).refused = if UnimplementedXY b then some b else none :=
  of_decide_eq_true rfl

/-- The fourth bytes the `DDCB` and `FDCB` tables leave out (30 R128, R134). -/
abbrev UnimplementedXYCB (b : Byte) : Prop := b.toNat % 8 ≠ 6 ∨ b = 0x36

theorem refused_decodeXYCB (k : Index) (d : Byte) : ∀ b : Byte,
    (decodeXYCB k d b).refused = if UnimplementedXYCB b then some b else none := by
  cases k with
  | ix => exact of_decide_eq_true rfl
  | iy => exact of_decide_eq_true rfl

/-! ### The decoder on four bytes -/

theorem refused_decode4_main {b0 : Byte} (hCB : b0 ≠ 0xCB) (hED : b0 ≠ 0xED) (hDD : b0 ≠ 0xDD) (hFD : b0 ≠ 0xFD)
    (b1 b2 b3 : Byte) : (decode4 b0 b1 b2 b3).refused = none := by
  rw [decode4, if_neg hCB, if_neg hED, if_neg hDD, if_neg hFD]
  split
  next => exact refused_decodeMain0 _ _ _
  next => exact refused_decodeMain1 _
  next => exact refused_decodeMain2 _
  next h0 h1 h2 =>
    have hx : fieldX b0 ∉ [0, 1, 2] := by simpa using ⟨h0, h1, h2⟩
    have hp : b0 ∉ [0xCB, 0xED, 0xDD, 0xFD] := by simpa using ⟨hCB, hED, hDD, hFD⟩
    exact refused_decodeMain3 _ _ _ hx hp

theorem refused_ite_eq_some {p : Prop} [Decidable p] {b op : Byte} :
    (if p then some b else none) = some op ↔ op = b ∧ p := by
  rw [Option.ite_none_right_eq_some, Option.some_inj, and_comm, eq_comm]

/-- A refusal in the `DD` or `FD` table, its escape to `DDCB` or `FDCB` among them. -/
theorem refused_decodeXY_eq_some {k : Index} {b1 b2 b3 op : Byte} :
    (decodeXY k b1 b2 b3).refused = some op ↔
      b1 ≠ 0xCB ∧ op = b1 ∧ UnimplementedXY b1 ∨ b1 = 0xCB ∧ op = b3 ∧ UnimplementedXYCB b3 := by
  by_cases h : b1 = 0xCB
  · have hd : decodeXY k b1 b2 b3 = decodeXYCB k b2 b3 := if_pos h
    rw [hd, refused_decodeXYCB, refused_ite_eq_some]
    simp only [h, ne_eq, not_true_eq_false, false_and, true_and, false_or]
  · rw [refused_decodeXY _ _ _ _ h, refused_ite_eq_some]
    simp only [h, ne_eq, not_false_eq_true, false_and, true_and, or_false]

theorem refused_decode4_eq_some {b0 b1 b2 b3 op : Byte} :
    (decode4 b0 b1 b2 b3).refused = some op ↔
      b0 = 0xCB ∧ op = b1 ∧ UnimplementedCB b1 ∨
      b0 = 0xED ∧ op = b1 ∧ UnimplementedED b1 ∨
      (b0 = 0xDD ∨ b0 = 0xFD) ∧ b1 ≠ 0xCB ∧ op = b1 ∧ UnimplementedXY b1 ∨
      (b0 = 0xDD ∨ b0 = 0xFD) ∧ b1 = 0xCB ∧ op = b3 ∧ UnimplementedXYCB b3 := by
  by_cases hCB : b0 = 0xCB
  · subst hCB
    have hd : decode4 0xCB b1 b2 b3 = decodeCB b1 := rfl
    rw [hd, refused_decodeCB, refused_ite_eq_some]
    simp only [BitVec.reduceEq, true_and, false_and, or_false]
  by_cases hED : b0 = 0xED
  · subst hED
    have hd : decode4 0xED b1 b2 b3 = decodeED b1 (mkWord b3 b2) := rfl
    rw [hd, refused_decodeED, refused_ite_eq_some]
    simp only [BitVec.reduceEq, true_and, false_and, or_false, false_or]
  by_cases hDD : b0 = 0xDD
  · subst hDD
    have hd : decode4 0xDD b1 b2 b3 = decodeXY .ix b1 b2 b3 := rfl
    rw [hd, refused_decodeXY_eq_some]
    simp only [BitVec.reduceEq, true_and, false_and, true_or, false_or]
  by_cases hFD : b0 = 0xFD
  · subst hFD
    have hd : decode4 0xFD b1 b2 b3 = decodeXY .iy b1 b2 b3 := rfl
    rw [hd, refused_decodeXY_eq_some]
    simp only [BitVec.reduceEq, true_and, false_and, or_true, false_or]
  · rw [refused_decode4_main hCB hED hDD hFD]
    simp only [hCB, hED, hDD, hFD, reduceCtorEq, false_and, or_false]

/-- Settles O4: the first byte chooses the table, and each table's `refused_…` lemma says what it leaves out. -/
theorem unimplementedSet : Obligations.UnimplementedSet := fun _ _ _ _ _ =>
  Decoded.refused_eq_some.symm.trans refused_decode4_eq_some

/-! ### Decoding a list of bytes -/

/-- A list decodes only by the instruction its first four bytes are, with what follows it left over. -/
theorem decode4_of_decode {bytes rest : List Byte} {i : Instr} (h : decode bytes = .ok (i, rest)) :
    ∃ len ≤ bytes.length, rest = bytes.drop len ∧
      decode4 (bytes.getD 0 0) (bytes.getD 1 0) (bytes.getD 2 0) (bytes.getD 3 0) = .instr i len := by
  unfold decode at h
  split at h
  next j len hd =>
    split at h
    next => cases h
    next hlen =>
      obtain ⟨rfl, rfl⟩ := h
      exact ⟨len, Nat.le_of_not_lt hlen, rfl, hd⟩
  next => split at h <;> cases h

end Sys2Proof

namespace Sys2Proof.Machine

/-- Settles O5: `decode4_of_decode` on the four bytes at `PC`. -/
theorem stepRunsDecoded : Obligations.StepRunsDecoded := by
  intro s i rest hs h
  obtain ⟨len, -, -, hd⟩ := decode4_of_decode h
  have hpc : s.decodeAtPC = .instr i len := hd
  rw [step, hs, hpc]
  rfl

end Sys2Proof.Machine
end

section
/-! SUPPORT. The load family (40_load): every meaning is one update of the retired state, so each form is its encoding
and the law of that update. -/

namespace Sys2Proof.Machine

/-! ### Encodings with a word after two opcode bytes -/

/-- An encoding of two opcode bytes and a word, low byte first (30 R127). -/
theorem decodesTo_two_word {b0 b1 : Byte} {i : Word → Instr}
    (h : ∀ b2 b3, decode4 b0 b1 b2 b3 = .instr (i (mkWord b3 b2)) 4) (nn : Word) :
    decodesTo [b0, b1, byteOf nn.toNat, byteOf (nn.toNat / 256)] (i nn) :=
  decodesTo_four (by rw [h, mkWord_byteOf])

/-! ### A meaning that is one update of the retired state -/

section
variable {i : Instr} {s : State} {len m1 : Nat}

theorem exec_update_fetched (f : State → State) (h : exec i s = .next (f (s.retire len m1))) :
    exec i s = .next (f (fetched s len m1)) := by
  rw [h, retire_eq]

theorem exec_store_ramAfter {a : Word} {v : Byte} (h : exec i s = .next ((s.retire len m1).store a v)) :
    ∃ m, exec i s = .next { fetched s len m1 with ram := m } ∧ ramAfter s m [(a, v)] :=
  ⟨_, exec_update_fetched (·.store a v) h, ramAfter_store s a v⟩

theorem exec_store16_ramAfter {a v : Word} (h : exec i s = .next ((s.retire len m1).store16 a v)) :
    ∃ m, exec i s = .next { fetched s len m1 with ram := m } ∧
      ramAfter s m [(a, byteOf v.toNat), (a + 1, byteOf (v.toNat / 256))] :=
  ⟨_, exec_update_fetched (·.store16 a v) h, ramAfter_store16 s a v⟩

theorem exec_push16_ramAfter {v : Word} (h : exec i s = .next ((s.retire len m1).push16 v)) :
    ∃ m, exec i s = .next { fetched s len m1 with ram := m, sp := s.sp - 2 } ∧
      ramAfter s m [(s.sp - 1, byteOf (v.toNat / 256)), (s.sp - 2, byteOf v.toNat)] :=
  ⟨_, exec_update_fetched (·.push16 v) h, ramAfter_push16 s v⟩

end

/-! ### 8-bit loads -/

/-- Settles O25: every form is `setReg` on the fetched state. -/
theorem loadRegister : Obligations.LoadRegister := by
  refine fun r src n d nn s =>
    ⟨⟨?ldRR, exec_update_fetched (·.setReg r (s.reg src)) rfl⟩,
      ⟨?ldRN, exec_update_fetched (·.setReg r n) rfl⟩,
      ⟨?ldRAtHL, exec_update_fetched (·.setReg r (s.fetch s.hl)) rfl⟩,
      ⟨?ldRAtIX, exec_update_fetched (·.setReg r (s.fetch (s.atIX d))) rfl⟩,
      ⟨?ldRAtIY, exec_update_fetched (·.setReg r (s.fetch (s.atIY d))) rfl⟩,
      ⟨decodesTo_one fun _ _ _ => rfl, exec_update_fetched (·.setReg .a (s.fetch s.bc)) rfl⟩,
      ⟨decodesTo_one fun _ _ _ => rfl, exec_update_fetched (·.setReg .a (s.fetch s.de)) rfl⟩,
      ⟨decodesTo_word (fun _ _ _ => rfl) nn, exec_update_fetched (·.setReg .a (s.fetch nn)) rfl⟩⟩
  case ldRR => cases r <;> cases src <;> exact decodesTo_one fun _ _ _ => rfl
  case ldRN => cases r <;> exact decodesTo_two fun _ _ => rfl
  case ldRAtHL => cases r <;> exact decodesTo_one fun _ _ _ => rfl
  case ldRAtIX => cases r <;> exact decodesTo_three fun _ => rfl
  case ldRAtIY => cases r <;> exact decodesTo_three fun _ => rfl

/-- Settles O26: every form is one `store` on the fetched state, whose bytes are those of `ramAfter_store`. -/
theorem storeByte : Obligations.StoreByte := by
  refine fun src n d nn s =>
    ⟨⟨?ldAtHLR, exec_store_ramAfter rfl⟩,
      ⟨?ldAtIXR, exec_store_ramAfter rfl⟩,
      ⟨?ldAtIYR, exec_store_ramAfter rfl⟩,
      ⟨decodesTo_two fun _ _ => rfl, exec_store_ramAfter rfl⟩,
      ⟨decodesTo_four rfl, exec_store_ramAfter rfl⟩,
      ⟨decodesTo_four rfl, exec_store_ramAfter rfl⟩,
      ⟨decodesTo_one fun _ _ _ => rfl, exec_store_ramAfter rfl⟩,
      ⟨decodesTo_one fun _ _ _ => rfl, exec_store_ramAfter rfl⟩,
      ⟨decodesTo_word (fun _ _ _ => rfl) nn, exec_store_ramAfter rfl⟩⟩
  case ldAtHLR => cases src <;> exact decodesTo_one fun _ _ _ => rfl
  case ldAtIXR => cases src <;> exact decodesTo_three fun _ => rfl
  case ldAtIYR => cases src <;> exact decodesTo_three fun _ => rfl

/-! ### `I` and `R` -/

/-- Bit 7 of `R` stands through every fetch (10 R29). -/
theorem sign_refreshed (r : Byte) (k : Nat) : decide (128 ≤ (refreshed r k).toNat) = decide (128 ≤ r.toNat) := by
  rw [← getLsbD_seven, ← getLsbD_seven]; simp [refreshed]

/-- `A` loaded from `I` or `R`: the sign and zero of the byte, `P/V` from `IFF2`, `C` as it was (40 R217, R218). -/
theorem exec_loadSpecial_flagged {i : Instr} {s : State} {v : Byte}
    (h : exec i s = .next (loadSpecial (s.retire 2 2) v)) :
    ∃ y x n, exec i s =
      .next (flagged { fetched s 2 2 with main := { s.main with a := v } }
        { s := decide (128 ≤ v.toNat), z := decide (v = 0), h := false, pv := s.iff2, n := false, c := s.main.f.c }
        y x n) := by
  rw [h, retire_eq, loadSpecial, setFlags_eq, getLsbD_seven]
  exact ⟨_, _, _, rfl⟩

theorem exec_ldAR (s : State) : exec .ldAR s = .next (loadSpecial (s.retire 2 2) (refreshed s.rReg 2)) := by
  rw [← stepR_eq]; rfl

/-- Settles O27: the reads by the law of `loadSpecial`, `R` after its own fetch's two steps; the writes are made on the
fetched state. -/
theorem loadSpecialRegisters : Obligations.LoadSpecial := by
  refine fun s =>
    ⟨⟨decodesTo_two fun _ _ => rfl, exec_loadSpecial_flagged rfl⟩,
      ⟨decodesTo_two fun _ _ => rfl, ?ldAR⟩,
      ⟨decodesTo_two fun _ _ => rfl, exec_update_fetched (fun t => { t with iReg := s.main.a }) rfl⟩,
      ⟨decodesTo_two fun _ _ => rfl, exec_update_fetched (fun t => { t with rReg := s.main.a }) rfl⟩⟩
  case ldAR =>
    rw [← sign_refreshed s.rReg 2]
    exact exec_loadSpecial_flagged (exec_ldAR s)

/-! ### 16-bit loads -/

theorem State.setHL_mkWord (s : State) (h l : Byte) :
    s.setHL (mkWord h l) = { s with main := { s.main with h := h, l := l } } := by
  rw [State.setHL, highByte_mkWord, lowByte_mkWord]

/-- Settles O28: every form writes one pair of the fetched state. -/
theorem loadPair : Obligations.LoadPair := by
  refine fun dd nn s =>
    ⟨⟨?ldDDNN, exec_update_fetched (·.setPairDD dd nn) rfl⟩,
      ⟨decodesTo_two_word (fun _ _ => rfl) nn, exec_update_fetched (fun t => { t with ix := nn }) rfl⟩,
      ⟨decodesTo_two_word (fun _ _ => rfl) nn, exec_update_fetched (fun t => { t with iy := nn }) rfl⟩,
      ⟨decodesTo_word (fun _ _ _ => rfl) nn, ?ldHLAtNN⟩,
      ⟨?ldDDAtNN, exec_update_fetched (·.setPairDD dd (s.fetch16 nn)) rfl⟩,
      ⟨decodesTo_two_word (fun _ _ => rfl) nn, exec_update_fetched (fun t => { t with ix := s.fetch16 nn }) rfl⟩,
      ⟨decodesTo_two_word (fun _ _ => rfl) nn, exec_update_fetched (fun t => { t with iy := s.fetch16 nn }) rfl⟩,
      ⟨decodesTo_one fun _ _ _ => rfl, exec_update_fetched (fun t => { t with sp := s.hl }) rfl⟩,
      ⟨decodesTo_two fun _ _ => rfl, exec_update_fetched (fun t => { t with sp := s.ix }) rfl⟩,
      ⟨decodesTo_two fun _ _ => rfl, exec_update_fetched (fun t => { t with sp := s.iy }) rfl⟩⟩
  case ldDDNN => cases dd <;> exact decodesTo_word (i := .ldDDNN _) (fun _ _ _ => rfl) nn
  case ldHLAtNN =>
    have h : exec (.ldHLAtNN nn) s = .next ((fetched s 3 1).setHL (s.fetch16 nn)) :=
      exec_update_fetched (·.setHL (s.fetch16 nn)) rfl
    rw [h, State.fetch16, State.setHL_mkWord]
    rfl
  case ldDDAtNN => cases dd <;> exact decodesTo_two_word (i := .ldDDAtNN _) (fun _ _ => rfl) nn

/-- Settles O29: every form is one `store16` on the fetched state, whose bytes are those of `ramAfter_store16`. -/
theorem storeWord : Obligations.StoreWord := by
  refine fun dd nn s =>
    ⟨⟨decodesTo_word (fun _ _ _ => rfl) nn, ?ldAtNNHL⟩,
      ⟨?ldAtNNDD, exec_store16_ramAfter rfl⟩,
      ⟨decodesTo_two_word (fun _ _ => rfl) nn, exec_store16_ramAfter rfl⟩,
      ⟨decodesTo_two_word (fun _ _ => rfl) nn, exec_store16_ramAfter rfl⟩⟩
  case ldAtNNHL =>
    have h := exec_store16_ramAfter (i := .ldAtNNHL nn) (s := s) rfl
    rwa [← lowByte_eq, ← highByte_eq, State.hl, lowByte_mkWord, highByte_mkWord] at h
  case ldAtNNDD => cases dd <;> exact decodesTo_two_word (i := (.ldAtNNDD · _)) (fun _ _ => rfl) nn

/-! ### The stack -/

/-- Settles O30: a push is `push16` on the fetched state, whose bytes are those of `ramAfter_push16`; a pop reads the
word before `SP` moves past it. -/
theorem pushPop : Obligations.PushPop := by
  refine fun qq s =>
    ⟨⟨?pushQQ, exec_push16_ramAfter rfl⟩,
      ⟨decodesTo_two fun _ _ => rfl, exec_push16_ramAfter rfl⟩,
      ⟨decodesTo_two fun _ _ => rfl, exec_push16_ramAfter rfl⟩,
      ⟨?popQQ, exec_update_fetched (fun t => t.dropTop.setPairQQ qq s.top16) rfl⟩,
      ⟨decodesTo_two fun _ _ => rfl, exec_update_fetched (fun t => { t.dropTop with ix := s.top16 }) rfl⟩,
      ⟨decodesTo_two fun _ _ => rfl, exec_update_fetched (fun t => { t.dropTop with iy := s.top16 }) rfl⟩⟩
  case pushQQ => cases qq <;> exact decodesTo_one fun _ _ _ => rfl
  case popQQ => cases qq <;> exact decodesTo_one fun _ _ _ => rfl

end Sys2Proof.Machine
end

section
/-! SUPPORT. The 8-bit arithmetic and logic family (41_arith8_logic): the flag computations on integers, and the
instructions as one update of the retired state with the flags written. -/

namespace Sys2Proof.Machine

/-! ### `add8` and `sub8` -/

section
variable (a b : Byte) (cin : Bool)

theorem add8_res_toNat : (add8 a b cin).res.toNat = (a.toNat + b.toNat + cin.toNat) % 256 := BitVec.toNat_ofNat ..

theorem sub8_res_toNat :
    ((sub8 a b cin).res.toNat : Int) = ((a.toNat : Int) - b.toNat - cin.toNat) % 256 := by
  rw [sub8, BitVec.toNat_ofInt, Int.toNat_of_nonneg (Int.emod_nonneg _ (by decide))]
  rfl

/-- Operands of one sign and a result of the other (41 R250). -/
theorem add8_pv : (add8 a b cin).flags.pv =
    (a.getLsbD 7 == b.getLsbD 7 && (add8 a b cin).res.getLsbD 7 != a.getLsbD 7) := rfl

/-- Operands of two signs and a result not of the first one's (41 R251). -/
theorem sub8_pv : (sub8 a b cin).flags.pv =
    (a.getLsbD 7 != b.getLsbD 7 && (sub8 a b cin).res.getLsbD 7 != a.getLsbD 7) := rfl

/-- Overflow is the signed sum out of a byte's range. -/
theorem add8_pv_iff : (add8 a b cin).flags.pv = true ↔
    a.toInt + b.toInt + cin.toNat < -128 ∨ 127 < a.toInt + b.toInt + cin.toNat := by
  have ha := a.isLt
  have hb := b.isLt
  have hc := cin.toNat_le
  have hres := add8_res_toNat a b cin
  rw [add8_pv, getLsbD_seven, getLsbD_seven, getLsbD_seven, BitVec.toInt_eq_toNat_cond, BitVec.toInt_eq_toNat_cond]
  -- the four pairs of the operands' signs
  by_cases sa : 128 ≤ a.toNat <;> by_cases sb : 128 ≤ b.toNat <;> simp [sa, sb] <;> omega

/-- Overflow is the signed difference out of a byte's range. -/
theorem sub8_pv_iff : (sub8 a b cin).flags.pv = true ↔
    a.toInt - b.toInt - cin.toNat < -128 ∨ 127 < a.toInt - b.toInt - cin.toNat := by
  have ha := a.isLt
  have hb := b.isLt
  have hc := cin.toNat_le
  have hres := sub8_res_toNat a b cin
  rw [sub8_pv, getLsbD_seven, getLsbD_seven, getLsbD_seven, BitVec.toInt_eq_toNat_cond, BitVec.toInt_eq_toNat_cond]
  -- the four pairs of the operands' signs
  by_cases sa : 128 ≤ a.toNat <;> by_cases sb : 128 ≤ b.toNat <;> simp [sa, sb] <;> omega

end

/-! ### The flags of a result -/

theorem parity_eq (v : Byte) : parity v = decide (ones v.toNat % 2 = 0) := by
  revert v; decide

theorem beq_zero_eq (v : Byte) : (v == 0) = decide (v.toNat = 0) := by
  rw [Bool.eq_iff_iff, beq_iff_eq, decide_eq_true_iff, ← BitVec.toNat_inj]
  rfl

theorem logic8_eq (v : Byte) (h : Bool) : logic8 v h = parityFlags v h false := by
  rw [logic8, parityFlags, getLsbD_seven, beq_zero_eq, parity_eq]

theorem shiftFlags_eq (v : Byte) (c : Bool) : shiftFlags v c = parityFlags v false c := by
  rw [shiftFlags, parityFlags, getLsbD_seven, beq_zero_eq, parity_eq]

/-- Settles O31: the results and the overflows by their laws on integers, `S` by `getLsbD_seven`; `Z`, `H` and `C` are
written that way in the model, a borrow as a negative difference. -/
theorem byteFlagComputations : Obligations.ByteFlagComputations := by
  refine ⟨fun a b cin => ⟨⟨add8_res_toNat a b cin, getLsbD_seven _, rfl, rfl, ?addOverflow, rfl, rfl⟩,
    sub8_res_toNat a b cin, getLsbD_seven _, rfl, ?subHalf, ?subOverflow, rfl, ?subCarry⟩,
    fun v h c => ⟨?parity, logic8_eq v h, shiftFlags_eq v c⟩⟩
  case addOverflow => exact Bool.eq_iff_iff.2 ((add8_pv_iff a b cin).trans decide_eq_true_iff.symm)
  case subOverflow => exact Bool.eq_iff_iff.2 ((sub8_pv_iff a b cin).trans decide_eq_true_iff.symm)
  case subHalf => exact decide_eq_decide.2 (by omega)
  case subCarry => exact decide_eq_decide.2 (by omega)
  case parity => rw [parity_eq, decide_eq_true_iff]

/-! ### A meaning that updates the retired state and writes the flags -/

section
variable {i : Instr} {s : State} {len m1 : Nat}

theorem exec_update_flagged {f : DocFlags} (g : State → State)
    (h : exec i s = .next ((g (s.retire len m1)).setFlags f)) :
    ∃ y x k, exec i s = .next (flagged (g (fetched s len m1)) f y x k) := by
  rw [h, retire_eq, setFlags_eq]
  exact ⟨_, _, _, rfl⟩

theorem exec_putReg_flagged {r : Reg8} {v : Byte} {f : DocFlags}
    (h : exec i s = .next (putReg (s.retire len m1) r ⟨v, f⟩)) :
    ∃ y x k, exec i s = .next (flagged { fetched s len m1 with main := s.main.set r v } f y x k) :=
  exec_update_flagged (·.setReg r v) h

/-- A result written to memory: the flags are those of the result at a ROM address too (41 R263). -/
theorem exec_putMem_flagged {a : Word} {v : Byte} {f : DocFlags}
    (h : exec i s = .next (putMem (s.retire len m1) a ⟨v, f⟩)) :
    ∃ y x k m, exec i s = .next (flagged { fetched s len m1 with ram := m } f y x k) ∧ ramAfter s m [(a, v)] := by
  obtain ⟨y, x, k, he⟩ := exec_update_flagged (·.store a v) h
  exact ⟨y, x, k, _, he, ramAfter_store s a v⟩

end

/-! ### The accumulator operations, by their code -/

/-- The accumulator operation `y` on an operand `v`, written to `A` and `F` (41 R253). -/
def accumulate (y : Nat) (t : State) (v : Byte) : State :=
  (t.setReg .a (accumulator y t.main.a v t.main.f.c).1).setFlags (accumulator y t.main.a v t.main.f.c).2

section
variable (s : State)

theorem exec_aluReg (src : Reg8) :
    ∀ y, exec (aluReg y src) s = .next (accumulate y (s.retire 1 1) (s.reg src))
  | 0 | 1 | 2 | 3 | 4 | 5 | 6 | _ + 7 => rfl

theorem exec_aluImm (n : Byte) : ∀ y, exec (aluImm y n) s = .next (accumulate y (s.retire 2 1) n)
  | 0 | 1 | 2 | 3 | 4 | 5 | 6 | _ + 7 => rfl

theorem exec_aluAtHL : ∀ y, exec (aluAtHL y) s = .next (accumulate y (s.retire 1 1) (s.fetch s.hl))
  | 0 | 1 | 2 | 3 | 4 | 5 | 6 | _ + 7 => rfl

theorem exec_aluAtIX (d : Byte) :
    ∀ y, exec (aluAtIX y d) s = .next (accumulate y (s.retire 3 2) (s.fetch (s.atIX d)))
  | 0 | 1 | 2 | 3 | 4 | 5 | 6 | _ + 7 => rfl

theorem exec_aluAtIY (d : Byte) :
    ∀ y, exec (aluAtIY y d) s = .next (accumulate y (s.retire 3 2) (s.fetch (s.atIY d)))
  | 0 | 1 | 2 | 3 | 4 | 5 | 6 | _ + 7 => rfl

end

theorem exec_accumulate_flagged {i : Instr} {s : State} {len m1 y : Nat} {v : Byte}
    (h : exec i s = .next (accumulate y (s.retire len m1) v)) :
    ∃ fy fx k, exec i s =
      .next (flagged { fetched s len m1 with main := { s.main with a := (accumulator y s.main.a v s.main.f.c).1 } }
        (accumulator y s.main.a v s.main.f.c).2 fy fx k) :=
  exec_update_flagged (·.setReg .a (accumulator y s.main.a v s.main.f.c).1) h

/-- Settles O32: the rows are the decoder's own tables by operation code, and `accumulate` is what each entry does. -/
theorem accumulatorOperations : Obligations.AccumulatorOperations := by
  intro src n d s y _ _ _ _ _ h
  obtain ⟨_, hy, hrow⟩ := List.mem_map.1 (show _ ∈ (List.range 8).map fun y =>
    (y, aluReg y src, aluImm y n, aluAtHL y, aluAtIX y d, aluAtIY y d) from h)
  rw [List.mem_range] at hy
  cases hrow
  refine ⟨⟨?reg, exec_accumulate_flagged (exec_aluReg s src y)⟩,
    ⟨?imm, exec_accumulate_flagged (exec_aluImm s n y)⟩,
    ⟨?atHL, exec_accumulate_flagged (exec_aluAtHL s y)⟩,
    ⟨?atIX, exec_accumulate_flagged (exec_aluAtIX s d y)⟩,
    ⟨?atIY, exec_accumulate_flagged (exec_aluAtIY s d y)⟩⟩
  case reg => interval_cases y <;> cases src <;> exact decodesTo_one fun _ _ _ => rfl
  case imm => interval_cases y <;> exact decodesTo_two fun _ _ => rfl
  case atHL => interval_cases y <;> exact decodesTo_one fun _ _ _ => rfl
  case atIX => interval_cases y <;> exact decodesTo_three fun _ => rfl
  case atIY => interval_cases y <;> exact decodesTo_three fun _ => rfl

/-! ### `INC` and `DEC` -/

/-- Settles O33: both operations put a result back by `exec_putReg_flagged` and `exec_putMem_flagged`: the byte, and its
flags with the old carry among them (41 R262, R266). -/
theorem incrementDecrement8 : Obligations.IncrementDecrement8 := by
  intro r d s z f iR iHL iX iY h
  simp only [List.mem_cons, List.not_mem_nil, or_false, Prod.mk.injEq] at h
  obtain ⟨rfl, rfl, rfl, rfl, rfl, rfl⟩ | ⟨rfl, rfl, rfl, rfl, rfl, rfl⟩ := h
  all_goals
    refine ⟨⟨?reg, exec_putReg_flagged rfl⟩, ⟨decodesTo_one fun _ _ _ => rfl, exec_putMem_flagged rfl⟩,
      ⟨decodesTo_three fun _ => rfl, exec_putMem_flagged rfl⟩, ⟨decodesTo_three fun _ => rfl, exec_putMem_flagged rfl⟩⟩
    case reg => cases r <;> exact decodesTo_one fun _ _ _ => rfl

/-! ### `CPL`, `NEG`, `CCF`, `SCF` -/

theorem xor_ones_eq_byteOf (a : Byte) : a ^^^ 0xFF = byteOf (255 - a.toNat) := by
  have hnot : a ^^^ 0xFF = ~~~a := BitVec.xor_allOnes
  rw [hnot, ← BitVec.toNat_inj, BitVec.toNat_not, byteOf, BitVec.toNat_ofNat]
  omega

/-- Settles O34: each is one update with its flags; complementing a byte subtracts it from 255. -/
theorem accumulatorAndFlagOperations : Obligations.AccumulatorAndFlagOperations := by
  intro s
  refine ⟨⟨decodesTo_one fun _ _ _ => rfl, ?cpl⟩,
    ⟨decodesTo_two fun _ _ => rfl, exec_putReg_flagged (r := .a) rfl⟩,
    ⟨decodesTo_one fun _ _ _ => rfl, exec_update_flagged id rfl⟩,
    ⟨decodesTo_one fun _ _ _ => rfl, exec_update_flagged id rfl⟩⟩
  case cpl =>
    rw [← xor_ones_eq_byteOf]
    exact exec_update_flagged (·.setReg .a (s.main.a ^^^ 0xFF)) rfl

/-! ### `DAA` -/

/-- The correction `corr` of 41 R270, from `A` and the flags before. -/
def daaCorrection (a : Byte) (f : DocFlags) : Nat :=
  (if f.h = true ∨ a.toNat % 16 > 9 then 6 else 0) + (if f.c = true ∨ a.toNat > 0x99 then 0x60 else 0)

theorem daaResult_res (a : Byte) (f : DocFlags) : (daaResult a f).res =
    if f.n then a - BitVec.ofNat 8 (daaCorrection a f) else a + BitVec.ofNat 8 (daaCorrection a f) := by
  simp only [daaResult, daaCorrection, Bool.or_eq_true, decide_eq_true_eq]

theorem daaResult_flags (a : Byte) (f : DocFlags) : (daaResult a f).flags =
    { parityFlags (daaResult a f).res
        (if f.n then decide (f.h = true ∧ a.toNat % 16 < 6) else decide (a.toNat % 16 > 9))
        (decide (f.c = true ∨ a.toNat > 0x99)) with n := f.n } := by
  simp only [daaResult, parityFlags, getLsbD_seven, beq_zero_eq, parity_eq, Bool.decide_and, Bool.decide_or,
    Bool.decide_eq_true]

theorem daaResult_add {a : Byte} {f : DocFlags} (h : f.n = false) :
    (daaResult a f).res.toNat = (a.toNat + daaCorrection a f) % 256 := by
  rw [daaResult_res, h, if_neg Bool.false_ne_true, BitVec.toNat_add, BitVec.toNat_ofNat, Nat.add_mod_mod]

theorem daaResult_sub {a : Byte} {f : DocFlags} (h : f.n = true) :
    ((daaResult a f).res.toNat : Int) = ((a.toNat : Int) - daaCorrection a f) % 256 := by
  rw [daaResult_res, h, if_pos rfl, BitVec.toNat_sub, BitVec.toNat_ofNat]
  omega

/-- Settles O35: `DAA` puts `daaResult` in `A` and `F`, whose result and flags are those of `daaCorrection`. -/
theorem decimalAdjust : Obligations.DecimalAdjust := by
  refine fun s => ⟨decodesTo_one fun _ _ _ => rfl, ?_⟩
  obtain ⟨y, x, k, he⟩ := exec_putReg_flagged (i := .daa) (s := s) (r := .a) (f := (daaResult s.main.a s.doc).flags) rfl
  rw [daaResult_flags] at he
  exact ⟨y, x, k, _, _, _, rfl, rfl, daaResult_add, daaResult_sub, he⟩

end Sys2Proof.Machine
end

section
/-! SUPPORT. The 16-bit arithmetic family (42_arith16): the flag computations on integers, with one law of signed
overflow for the sum and the difference, and the instructions as one update of the retired state. -/

namespace Sys2Proof.Machine

/-! ### The value and the sign of a word -/

section
variable (w : Word)

theorem getLsbD_fifteen : w.getLsbD 15 = decide (32768 ≤ w.toNat) :=
  (BitVec.msb_eq_getLsbD_last w).symm.trans (BitVec.msb_eq_decide w)

theorem getLsbD_fifteen_toInt : w.getLsbD 15 = decide (w.toInt < 0) :=
  (BitVec.msb_eq_getLsbD_last w).symm.trans BitVec.msb_eq_toInt

theorem word_toInt_bounds : -32768 ≤ w.toInt ∧ w.toInt < 32768 := ⟨BitVec.le_toInt w, BitVec.toInt_lt⟩

theorem word_toInt_emod : w.toInt % 65536 = w.toNat := by
  have hw := w.isLt
  rw [BitVec.toInt_eq_toNat_cond]
  split <;> omega

theorem word_beq_zero_eq : (w == 0) = decide (w.toNat = 0) := by
  rw [Bool.eq_iff_iff, beq_iff_eq, decide_eq_true_iff, ← BitVec.toNat_inj]
  rfl

theorem word_add_one_eq : w + 1 = BitVec.ofNat 16 (w.toNat + 1) := rfl

theorem word_sub_one_eq : w - 1 = BitVec.ofNat 16 (w.toNat + 65535) := by
  rw [Nat.add_comm]
  rfl

end

/-! ### Signed overflow -/

/-- A step `u` of at most 32768, `down` or up, takes a word's signed value out of range exactly when the value's sign is
the direction's and the result's is not. -/
theorem overflow_iff {a res : Word} {u : Int} {down : Bool} (hdown : down = true → -32768 ≤ u ∧ u ≤ 0)
    (hup : down = false → 0 ≤ u ∧ u ≤ 32768) (hres : (res.toNat : Int) = (a.toInt + u) % 65536) :
    (a.getLsbD 15 = down ∧ res.getLsbD 15 ≠ a.getLsbD 15) ↔ a.toInt + u < -32768 ∨ 32767 < a.toInt + u := by
  have ha := word_toInt_bounds a
  rw [getLsbD_fifteen_toInt a, getLsbD_fifteen res]
  -- the two directions and the two signs of `a`
  cases down <;> by_cases sa : a.toInt < 0 <;> simp [sa] at hdown hup ⊢ <;> omega

/-! ### `adc16` and `sbc16` -/

section
variable (a b : Word) (cin : Bool)

theorem adc16_res_toNat : (adc16 a b cin).res.toNat = (a.toNat + b.toNat + cin.toNat) % 65536 := BitVec.toNat_ofNat ..

theorem sbc16_res_toNat :
    ((sbc16 a b cin).res.toNat : Int) = ((a.toNat : Int) - b.toNat - cin.toNat) % 65536 := by
  rw [sbc16, BitVec.toNat_ofInt, Int.toNat_of_nonneg (Int.emod_nonneg _ (by decide))]
  rfl

theorem adc16_res_toNat_of_toInt : ((adc16 a b cin).res.toNat : Int) = (a.toInt + (b.toInt + cin.toNat)) % 65536 := by
  have hres := adc16_res_toNat a b cin
  have ha := word_toInt_emod a
  have hb := word_toInt_emod b
  omega

theorem sbc16_res_toNat_of_toInt : ((sbc16 a b cin).res.toNat : Int) = (a.toInt + -(b.toInt + cin.toNat)) % 65536 := by
  have hres := sbc16_res_toNat a b cin
  have ha := word_toInt_emod a
  have hb := word_toInt_emod b
  omega

/-- Operands of one sign and a result of the other (42 R301). -/
theorem adc16_pv_iff : (adc16 a b cin).flags.pv = true ↔
    a.getLsbD 15 = b.getLsbD 15 ∧ (adc16 a b cin).res.getLsbD 15 ≠ a.getLsbD 15 := by
  rw [adc16, Bool.and_eq_true, beq_iff_eq, bne_iff_ne]

/-- Operands of two signs and a result not of the first one's (42 R302). -/
theorem sbc16_pv_iff : (sbc16 a b cin).flags.pv = true ↔
    a.getLsbD 15 = !b.getLsbD 15 ∧ (sbc16 a b cin).res.getLsbD 15 ≠ a.getLsbD 15 := by
  rw [sbc16, Bool.and_eq_true, bne_iff_ne, bne_iff_ne, Bool.eq_not]

/-- The sum steps down from `a` exactly when `b` is negative. -/
theorem adc16_pv : (adc16 a b cin).flags.pv =
    decide (a.toInt + b.toInt + cin.toNat < -32768 ∨ 32767 < a.toInt + b.toInt + cin.toNat) := by
  have hb := word_toInt_bounds b
  have hc := cin.toNat_le
  rw [Bool.eq_iff_iff, decide_eq_true_iff, adc16_pv_iff, Int.add_assoc, getLsbD_fifteen_toInt b]
  refine overflow_iff (fun hneg => ?_) (fun hpos => ?_) (adc16_res_toNat_of_toInt a b cin)
  · rw [decide_eq_true_iff] at hneg; omega
  · rw [decide_eq_false_iff_not] at hpos; omega

/-- The difference steps down from `a` exactly when `b` is not negative. -/
theorem sbc16_pv : (sbc16 a b cin).flags.pv =
    decide (a.toInt - b.toInt - cin.toNat < -32768 ∨ 32767 < a.toInt - b.toInt - cin.toNat) := by
  have hb := word_toInt_bounds b
  have hc := cin.toNat_le
  rw [Bool.eq_iff_iff, decide_eq_true_iff, sbc16_pv_iff, Int.sub_sub, Int.sub_eq_add_neg, getLsbD_fifteen_toInt b,
    ← decide_not]
  refine overflow_iff (fun hpos => ?_) (fun hneg => ?_) (sbc16_res_toNat_of_toInt a b cin)
  · rw [decide_eq_true_iff] at hpos; omega
  · rw [decide_eq_false_iff_not] at hneg; omega

theorem adc16_flags : (adc16 a b cin).flags =
    { s := decide (32768 ≤ (adc16 a b cin).res.toNat), z := decide ((adc16 a b cin).res.toNat = 0)
      h := decide (a.toNat % 4096 + b.toNat % 4096 + cin.toNat > 4095)
      pv := decide (a.toInt + b.toInt + cin.toNat < -32768 ∨ 32767 < a.toInt + b.toInt + cin.toNat)
      n := false, c := decide (a.toNat + b.toNat + cin.toNat > 65535) } := by
  rw [← getLsbD_fifteen, ← word_beq_zero_eq, ← adc16_pv]
  rfl

/-- A borrow is a negative difference. -/
theorem sbc16_flags : (sbc16 a b cin).flags =
    { s := decide (32768 ≤ (sbc16 a b cin).res.toNat), z := decide ((sbc16 a b cin).res.toNat = 0)
      h := decide (a.toNat % 4096 < b.toNat % 4096 + cin.toNat)
      pv := decide (a.toInt - b.toInt - cin.toNat < -32768 ∨ 32767 < a.toInt - b.toInt - cin.toNat)
      n := true, c := decide (a.toNat < b.toNat + cin.toNat) } := by
  have hhalf : a.toNat % 4096 < b.toNat % 4096 + cin.toNat ↔
      ((a.toNat % 4096 : Nat) : Int) - (b.toNat % 4096 : Nat) - cin.toNat < 0 := by omega
  have hborrow : a.toNat < b.toNat + cin.toNat ↔ (a.toNat : Int) - b.toNat - cin.toNat < 0 := by omega
  rw [← getLsbD_fifteen, ← word_beq_zero_eq, ← sbc16_pv, decide_eq_decide.2 hhalf, decide_eq_decide.2 hborrow]
  rfl

end

/-! ### The instructions -/

/-- Settles O37: each writes `HL` and the flags at once, with the result and the flags of `adc16` and `sbc16`. -/
theorem adcSbc16 : Obligations.AdcSbc16 := by
  refine fun ss s => ⟨⟨?adcCode, ?adc⟩, ⟨?sbcCode, ?sbc⟩⟩
  case adcCode => cases ss <;> exact decodesTo_two fun _ _ => rfl
  case sbcCode => cases ss <;> exact decodesTo_two fun _ _ => rfl
  case adc =>
    obtain ⟨y, x, k, he⟩ :=
      exec_update_flagged (i := .adcHLSS ss) (·.setHL (adc16 s.hl (s.pairDD ss) s.main.f.c).res) rfl
    rw [adc16_flags] at he
    exact ⟨y, x, k, _, adc16_res_toNat .., he⟩
  case sbc =>
    obtain ⟨y, x, k, he⟩ :=
      exec_update_flagged (i := .sbcHLSS ss) (·.setHL (sbc16 s.hl (s.pairDD ss) s.main.f.c).res) rfl
    rw [sbc16_flags] at he
    exact ⟨y, x, k, _, sbc16_res_toNat .., he⟩

/-- Settles O36: each writes its sum and the flags of `add16`, which the model states as the rule does. -/
theorem add16Pairs : Obligations.Add16 := by
  refine fun ss pp rr s =>
    ⟨⟨?hl, exec_update_flagged (·.setHL (add16 s.hl (s.pairDD ss) s.doc).res) rfl⟩,
      ⟨?ix, exec_update_flagged (fun t => { t with ix := (add16 s.ix (s.pairPP pp) s.doc).res }) rfl⟩,
      ⟨?iy, exec_update_flagged (fun t => { t with iy := (add16 s.iy (s.pairRR rr) s.doc).res }) rfl⟩⟩
  case hl => cases ss <;> exact decodesTo_one fun _ _ _ => rfl
  case ix => cases pp <;> exact decodesTo_two fun _ _ => rfl
  case iy => cases rr <;> exact decodesTo_two fun _ _ => rfl

/-- Settles O38: every form is one pair of the fetched state written with its old value, one more or one less. -/
theorem incrementDecrement16 : Obligations.IncrementDecrement16 := by
  intro ss s
  simp only [← word_add_one_eq, ← word_sub_one_eq]
  refine ⟨⟨?inc, exec_update_fetched (·.setPairDD ss (s.pairDD ss + 1)) rfl⟩,
    ⟨?dec, exec_update_fetched (·.setPairDD ss (s.pairDD ss - 1)) rfl⟩,
    ⟨decodesTo_two fun _ _ => rfl, exec_update_fetched (fun t => { t with ix := s.ix + 1 }) rfl⟩,
    ⟨decodesTo_two fun _ _ => rfl, exec_update_fetched (fun t => { t with iy := s.iy + 1 }) rfl⟩,
    ⟨decodesTo_two fun _ _ => rfl, exec_update_fetched (fun t => { t with ix := s.ix - 1 }) rfl⟩,
    ⟨decodesTo_two fun _ _ => rfl, exec_update_fetched (fun t => { t with iy := s.iy - 1 }) rfl⟩⟩
  case inc => cases ss <;> exact decodesTo_one fun _ _ _ => rfl
  case dec => cases ss <;> exact decodesTo_one fun _ _ _ => rfl

end Sys2Proof.Machine
end

section
/-! SUPPORT. The rotate and shift family (43_rotate_shift): every result is two bit fields put together, which add as
numbers, and the instructions are one update of the retired state with the flags written. -/

namespace Sys2Proof.Machine

/-! ### Bit fields of a byte as numbers -/

theorem eq_byteOf_of_toNat {v : Byte} {n : Nat} (h : v.toNat = n) : v = byteOf n := by
  rw [← h, byteOf, BitVec.ofNat_toNat, BitVec.setWidth_eq]

/-- A field from bit `k` up and a field below it: `or` adds them. -/
theorem toNat_or_of_fields {x y : Byte} (k : Nat) (hx : 2 ^ k ∣ x.toNat) (hy : y.toNat < 2 ^ k) :
    (x ||| y).toNat = x.toNat + y.toNat := by
  obtain ⟨q, hq⟩ := hx
  rw [BitVec.toNat_or, hq, Nat.two_pow_add_eq_or_of_lt hy]

section
variable (v : Byte)

theorem toNat_shiftLeft_byte (k : Nat) : (v <<< k).toNat = v.toNat * 2 ^ k % 256 := by
  rw [BitVec.toNat_shiftLeft, Nat.shiftLeft_eq]

theorem toNat_shiftRight_byte (k : Nat) : (v >>> k).toNat = v.toNat / 2 ^ k := by
  rw [BitVec.toNat_ushiftRight, Nat.shiftRight_eq_div_pow]

theorem getLsbD_zero_eq : v.getLsbD 0 = decide (v.toNat % 2 = 1) := Nat.testBit_zero v.toNat

theorem toNat_getLsbD_zero : (v.getLsbD 0).toNat = v.toNat % 2 := by
  rw [BitVec.getLsbD, Nat.toNat_testBit, pow_zero, Nat.div_one]

theorem toNat_getLsbD_seven : (v.getLsbD 7).toNat = v.toNat / 128 := by
  have hv := v.isLt
  rw [BitVec.getLsbD, Nat.toNat_testBit]
  omega

/-- The byte one place left, `b` in bit 0. -/
theorem toNat_shiftLeft_or_bit (b : Bool) :
    ((v <<< 1) ||| BitVec.ofNat 8 b.toNat).toNat = v.toNat * 2 % 256 + b.toNat := by
  have hv := toNat_shiftLeft_byte v 1
  have hb : (BitVec.ofNat 8 b.toNat).toNat = b.toNat := by cases b <;> rfl
  have hle := b.toNat_le
  rw [toNat_or_of_fields 1 (by omega) (by omega), hv, hb, pow_one]

/-- The byte one place right, `b` in bit 7. -/
theorem toNat_shiftRight_or_bit (b : Bool) :
    ((v >>> 1) ||| (BitVec.ofNat 8 b.toNat <<< 7)).toNat = v.toNat / 2 + b.toNat * 128 := by
  have hlt := v.isLt
  have hv := toNat_shiftRight_byte v 1
  have hb : (BitVec.ofNat 8 b.toNat <<< 7).toNat = b.toNat * 128 := by cases b <;> rfl
  rw [BitVec.or_comm, toNat_or_of_fields 7 (by omega) (by omega), hv, hb, pow_one, Nat.add_comm]

theorem and_sign_eq : v &&& 0x80#8 = BitVec.ofNat 8 (v.getLsbD 7).toNat <<< 7 := by
  revert v; decide

/-! ### The digits of a byte -/

theorem toNat_and_low_digit : (v &&& 0x0F#8).toNat = v.toNat % 16 := Nat.and_two_pow_sub_one_eq_mod v.toNat 4

theorem toNat_and_high_digit : (v &&& 0xF0#8).toNat = v.toNat / 16 * 16 := by
  revert v; decide

theorem toNat_low_digit_up : (v <<< 4).toNat = v.toNat % 16 * 16 := by
  rw [toNat_shiftLeft_byte]; omega

end

/-- Two digits put together: a multiple of 16 and a number below it. -/
theorem toNat_or_of_digits {x y : Byte} {h l : Nat} (hx : x.toNat = h * 16) (hy : y.toNat = l) (hl : l < 16) :
    (x ||| y).toNat = h * 16 + l := by
  rw [toNat_or_of_fields 4 (by omega) (by omega), hx, hy]

/-! ### The rotates and shifts, by their code -/

/-- The rotate or shift `y` of 43 R324 as the machine computes it. -/
def shift8 (y : Nat) (v : Byte) (cin : Bool) : Shift8 :=
  match y with
  | 0 => rlc8 v
  | 1 => rrc8 v
  | 2 => rl8 v cin
  | 3 => rr8 v cin
  | 4 => sla8 v
  | 5 => sra8 v
  | _ => srl8 v

section
variable (v : Byte) (cin : Bool)

theorem shift8_res_toNat : ∀ y, (shift8 y v cin).res.toNat = (shifted y v.toNat cin).1
  | 0 => by rw [shift8, rlc8, toNat_shiftLeft_or_bit, toNat_getLsbD_seven, shifted]
  | 1 => by rw [shift8, rrc8, toNat_shiftRight_or_bit, toNat_getLsbD_zero, shifted]
  | 2 => toNat_shiftLeft_or_bit v cin
  | 3 => toNat_shiftRight_or_bit v cin
  | 4 => toNat_shiftLeft_byte v 1
  | 5 => by rw [shift8, sra8, and_sign_eq, toNat_shiftRight_or_bit, toNat_getLsbD_seven, shifted]
  | _ + 6 => toNat_shiftRight_byte v 1

/-- The bit shifted out: bit 7 to the left, bit 0 to the right. -/
theorem shift8_carry : ∀ y, (shift8 y v cin).carry = (shifted y v.toNat cin).2
  | 0 | 2 | 4 => getLsbD_seven v
  | 1 | 3 | 5 | _ + 6 => getLsbD_zero_eq v

theorem shift8_eq (y : Nat) :
    shift8 y v cin = ⟨byteOf (shifted y v.toNat cin).1, (shifted y v.toNat cin).2⟩ := by
  rw [← eq_byteOf_of_toNat (shift8_res_toNat v cin y), ← shift8_carry]

end

/-! ### The instructions -/

section
variable {i : Instr} {s : State} {len m1 y : Nat}

theorem exec_rotateA_flagged (h : exec i s = .next (rotateA (s.retire len m1) (shift8 y s.main.a s.main.f.c))) :
    ∃ fy fx k, exec i s = .next (flagged
      { fetched s len m1 with main := { s.main with a := byteOf (shifted y s.main.a.toNat s.main.f.c).1 } }
      { s.main.f.toDocFlags with h := false, n := false, c := (shifted y s.main.a.toNat s.main.f.c).2 } fy fx k) := by
  rw [shift8_eq] at h
  exact exec_update_flagged (·.setReg .a (byteOf (shifted y s.main.a.toNat s.main.f.c).1)) h

theorem exec_shiftReg_flagged {r : Reg8} {v : Byte}
    (h : exec i s = .next (shiftReg (s.retire len m1) r (shift8 y v s.main.f.c))) :
    ∃ fy fx k, exec i s = .next (flagged
      { fetched s len m1 with main := s.main.set r (byteOf (shifted y v.toNat s.main.f.c).1) }
      (parityFlags (byteOf (shifted y v.toNat s.main.f.c).1) false (shifted y v.toNat s.main.f.c).2) fy fx k) := by
  rw [shift8_eq, shiftReg, shiftFlags_eq] at h
  exact exec_update_flagged (·.setReg r (byteOf (shifted y v.toNat s.main.f.c).1)) h

theorem exec_shiftMem_flagged {a : Word} {v : Byte}
    (h : exec i s = .next (shiftMem (s.retire len m1) a (shift8 y v s.main.f.c))) :
    ∃ fy fx k m, exec i s = .next (flagged { fetched s len m1 with ram := m }
      (parityFlags (byteOf (shifted y v.toNat s.main.f.c).1) false (shifted y v.toNat s.main.f.c).2) fy fx k) ∧
      ramAfter s m [(a, byteOf (shifted y v.toNat s.main.f.c).1)] := by
  rw [shift8_eq, shiftMem, shiftFlags_eq] at h
  exact exec_putMem_flagged h

/-- A digit rotate on numbers: `n` the new byte at `HL`, `p` the new `A` (43 R332). -/
theorem exec_digitRotate_flagged {b acc : Byte} {n p : Nat}
    (h : exec i s = .next (digitRotate (s.retire len m1) s.hl b acc)) (hb : b.toNat = n) (hacc : acc.toNat = p) :
    ∃ (fy fx : Bool) (k : Nat) (m : Memory) (a : Byte), a.toNat = p ∧
      exec i s = .next (flagged { fetched s len m1 with ram := m, main := { s.main with a := a } }
        (parityFlags a false s.main.f.c) fy fx k) ∧
      ramAfter s m [(s.hl, byteOf n)] := by
  rw [digitRotate, shiftFlags_eq] at h
  obtain ⟨fy, fx, k, he⟩ := exec_update_flagged (fun t => (t.store s.hl b).setReg .a acc) h
  exact ⟨fy, fx, k, _, acc, hacc, he, eq_byteOf_of_toNat hb ▸ ramAfter_store s s.hl b⟩

end

/-- Settles O39: the accumulator rotates are the first four shifts of `A`; a digit rotate puts two digits together
twice. -/
theorem accumulatorRotates : Obligations.AccumulatorRotates := by
  refine ⟨fun s y i h => ?rotates, fun s => ⟨⟨decodesTo_two fun _ _ => rfl, ?rld⟩, ⟨decodesTo_two fun _ _ => rfl, ?rrd⟩⟩⟩
  case rotates =>
    simp only [List.mem_cons, List.not_mem_nil, or_false, Prod.mk.injEq] at h
    obtain ⟨rfl, rfl⟩ | ⟨rfl, rfl⟩ | ⟨rfl, rfl⟩ | ⟨rfl, rfl⟩ := h
    all_goals exact ⟨decodesTo_one fun _ _ _ => rfl, exec_rotateA_flagged rfl⟩
  case rld =>
    have hm := (s.fetch s.hl).isLt
    exact exec_digitRotate_flagged rfl
      (toNat_or_of_digits (toNat_low_digit_up _) (toNat_and_low_digit _) (by omega))
      (toNat_or_of_digits (toNat_and_high_digit _) (toNat_shiftRight_byte _ 4) (by omega))
  case rrd =>
    have hm := (s.fetch s.hl).isLt
    exact exec_digitRotate_flagged rfl
      (toNat_or_of_digits ((toNat_low_digit_up _).trans (by rw [toNat_and_low_digit, Nat.mod_mod]))
        (toNat_shiftRight_byte _ 4) (by omega))
      (toNat_or_of_digits (toNat_and_high_digit _) (toNat_and_low_digit _) (by omega))

/-- Settles O40: each row of the table is one code, and its four forms put the result of `shift8` of that code back by
`exec_shiftReg_flagged` and `exec_shiftMem_flagged`. -/
theorem rotatesAndShifts : Obligations.RotatesAndShifts := by
  intro r d s y iR iHL iX iY sh h hsh
  obtain rfl : sh = fun v => shifted y v.toNat s.main.f.c := funext hsh
  simp only [List.mem_cons, List.not_mem_nil, or_false, Prod.mk.injEq] at h
  obtain ⟨rfl, rfl, rfl, rfl, rfl⟩ | ⟨rfl, rfl, rfl, rfl, rfl⟩ | ⟨rfl, rfl, rfl, rfl, rfl⟩ | ⟨rfl, rfl, rfl, rfl, rfl⟩ |
    ⟨rfl, rfl, rfl, rfl, rfl⟩ | ⟨rfl, rfl, rfl, rfl, rfl⟩ | ⟨rfl, rfl, rfl, rfl, rfl⟩ := h
  all_goals
    refine ⟨⟨?code, exec_shiftReg_flagged rfl⟩, ⟨decodesTo_two fun _ _ => rfl, exec_shiftMem_flagged rfl⟩,
      ⟨decodesTo_four rfl, exec_shiftMem_flagged rfl⟩, ⟨decodesTo_four rfl, exec_shiftMem_flagged rfl⟩⟩
    case code => cases r <;> exact decodesTo_two fun _ _ => rfl

end Sys2Proof.Machine
end

section
/-! SUPPORT. The bit family (44_bit): `BIT` reads one bit as a number, and the byte `SET` or `RES` puts back is the one
whose bits are the old ones but for the bit named. -/

namespace Sys2Proof.Machine

/-! ### `BIT` -/

theorem not_getLsbD_eq (v : Byte) (b : Nat) : (!v.getLsbD b) = decide (v.toNat / 2 ^ b % 2 = 0) := by
  rw [BitVec.getLsbD, Nat.testBit_eq_decide_div_mod_eq, ← decide_not]
  exact decide_eq_decide.2 Nat.mod_two_ne_one

theorem exec_testBit_flagged {i : Instr} {s : State} {len m1 b : Nat} {v : Byte}
    (h : exec i s = .next (testBit (s.retire len m1) b v)) :
    ∃ sf pv y x k, exec i s = .next (flagged (fetched s len m1)
      { s := sf, z := decide (v.toNat / 2 ^ b % 2 = 0), h := true, pv := pv, n := false, c := s.main.f.c } y x k) := by
  rw [testBit, not_getLsbD_eq] at h
  exact ⟨_, _, exec_update_flagged id h⟩

/-- Settles O41: every form is `testBit` on the fetched state; `S` and `P/V` are what it drew. -/
theorem bitTest : Obligations.BitTest := by
  refine fun b r d s hb => ⟨⟨?reg, exec_testBit_flagged rfl⟩, ⟨?atHL, exec_testBit_flagged rfl⟩,
    ⟨?atIX, exec_testBit_flagged rfl⟩, ⟨?atIY, exec_testBit_flagged rfl⟩⟩
  case reg => interval_cases b <;> cases r <;> exact decodesTo_two fun _ _ => rfl
  case atHL => interval_cases b <;> exact decodesTo_two fun _ _ => rfl
  case atIX => interval_cases b <;> exact decodesTo_four rfl
  case atIY => interval_cases b <;> exact decodesTo_four rfl

/-! ### `SET` and `RES` -/

section
variable {b : Nat} (hb : b < 8) (v : Byte) (k : Nat)
include hb

/-- Bit `k` of `1 << b` (44 R354): the shift loses nothing, since `b` names a bit of the byte. -/
theorem getLsbD_one_shiftLeft : (1#8 <<< b).getLsbD k = decide (k = b) := by
  rw [← BitVec.twoPow_eq, BitVec.getLsbD_twoPow]
  simp [hb, eq_comm]

theorem getLsbD_withBit : (withBit b v).getLsbD k = if k = b then true else v.getLsbD k := by
  rw [withBit, BitVec.getLsbD_or, getLsbD_one_shiftLeft hb]
  by_cases h : k = b <;> simp [h]

theorem getLsbD_withoutBit : (withoutBit b v).getLsbD k = if k = b then false else v.getLsbD k := by
  rw [withoutBit, BitVec.getLsbD_and, BitVec.getLsbD_not, getLsbD_one_shiftLeft hb]
  have hlt : v.getLsbD k = true → k < 8 := BitVec.lt_of_getLsbD
  by_cases h : k = b
  · simp [h]
  · simpa [h] using hlt

end

/-- A byte is its bits: what `put` does to every bit says which function it is. -/
theorem eq_of_getLsbD {put f : Byte → Byte} {b : Nat} {on : Bool}
    (hput : ∀ v k, (put v).getLsbD k = if k = b then on else v.getLsbD k)
    (hf : ∀ v k, (f v).getLsbD k = if k = b then on else v.getLsbD k) : put = f :=
  funext fun v => BitVec.eq_of_getLsbD_eq fun k _ => (hput v k).trans (hf v k).symm

/-- Settles O42: `put` is `withBit b` or `withoutBit b`, and every form is one update of the fetched state with it. -/
theorem bitSetReset : Obligations.BitSetReset := by
  intro b r d s on op iR iHL iX iY put hb h hput
  simp only [List.mem_cons, List.not_mem_nil, or_false, Prod.mk.injEq] at h
  obtain ⟨rfl, rfl, rfl, rfl, rfl, rfl⟩ | ⟨rfl, rfl, rfl, rfl, rfl, rfl⟩ := h
  case' inl => obtain rfl := eq_of_getLsbD hput (getLsbD_withBit hb)
  case' inr => obtain rfl := eq_of_getLsbD hput (getLsbD_withoutBit hb)
  all_goals
    refine ⟨⟨?reg, exec_update_fetched (·.setReg r _) rfl⟩, ⟨?atHL, exec_store_ramAfter rfl⟩,
      ⟨?atIX, exec_store_ramAfter rfl⟩, ⟨?atIY, exec_store_ramAfter rfl⟩⟩
    case reg => interval_cases b <;> cases r <;> exact decodesTo_two fun _ _ => rfl
    case atHL => interval_cases b <;> exact decodesTo_two fun _ _ => rfl
    case atIX => interval_cases b <;> exact decodesTo_four rfl
    case atIY => interval_cases b <;> exact decodesTo_four rfl

end Sys2Proof.Machine
end

section
/-! SUPPORT. The calls and the returns (45_jump_call_ret section 2): a call or a restart pushes the fetched state's `PC`, a
return pops it, and a conditional form is one of these or the fetched state. -/

namespace Sys2Proof.Machine

section
variable {i : Instr} {s : State} {len m1 : Nat}

/-- `Push16(pcn); PC <- target` (45 R372). -/
theorem exec_callTo_ramAfter {target : Word} (h : exec i s = .next (callTo (s.retire len m1) target)) :
    ∃ m, exec i s = .next { fetched s len m1 with pc := target, sp := s.sp - 2, ram := m } ∧
      ramAfter s m [(s.sp - 1, byteOf ((s.pcn len).toNat / 256)), (s.sp - 2, byteOf (s.pcn len).toNat)] :=
  ⟨_, exec_update_fetched (callTo · target) h, ramAfter_push16 s (s.pcn len)⟩

/-- `PC <- Pop16()` (45 R374): the fetch behind it moves neither the stack nor the memory. -/
theorem exec_returnFrom_fetched (h : exec i s = .next (returnFrom (s.retire len m1))) :
    exec i s = .next { fetched s len m1 with pc := s.fetch16 s.sp, sp := s.sp + 2 } :=
  exec_update_fetched returnFrom h

end

/-- Settles O44: the calls and restarts by `exec_callTo_ramAfter`, the returns by `exec_returnFrom_fetched`; a condition
chooses between one of these and the fetched state, and `RETN` writes `IFF1` over its return. -/
theorem callsAndReturns : Obligations.CallsAndReturns := by
  refine fun cc nn t s =>
    ⟨⟨decodesTo_word (fun _ _ _ => rfl) nn, exec_callTo_ramAfter rfl⟩,
      ⟨?callCc, ?taken, ?notTaken⟩,
      fun ht => ⟨?rst, exec_callTo_ramAfter rfl⟩,
      ⟨decodesTo_one fun _ _ _ => rfl, exec_returnFrom_fetched rfl⟩,
      ⟨?retCc, exec_update_fetched (fun u => if condHolds s.main.f cc then returnFrom u else u) rfl⟩,
      ⟨decodesTo_two fun _ _ => rfl, exec_returnFrom_fetched rfl⟩,
      ⟨decodesTo_two fun _ _ => rfl, exec_update_fetched (fun u => { returnFrom u with iff1 := s.iff2 }) rfl⟩⟩
  case callCc => cases cc <;> exact decodesTo_word (i := .callCcNN _) (fun _ _ _ => rfl) nn
  case taken => exact fun h => exec_callTo_ramAfter (congrArg _ (if_pos h))
  case notTaken => exact fun h => exec_update_fetched id (congrArg _ (if_neg (ne_true_of_eq_false h)))
  case rst => interval_cases t <;> exact decodesTo_one fun _ _ _ => rfl
  case retCc => cases cc <;> exact decodesTo_one fun _ _ _ => rfl

end Sys2Proof.Machine
end

section
/-! SUPPORT. The input and output family (46_io, 49_port_dispatcher_hbios R501 and R502): the port level port by port,
and the block forms as one count of `HL` and `B`, with the repeat test, on the state the port or the fetch left. -/

namespace Sys2Proof.Machine

/-! ### `PortIn` -/

section
variable {s : State} {p : Byte}

theorem portValue_other (h : p ∉ [0x68, 0x6D, 0x78, 0x7C, 0xFE]) : portValue s p = 0xFF := by
  simp only [List.mem_cons, List.not_mem_nil, or_false, not_or] at h
  obtain ⟨hData, hStatus, hBank, hBank', hFE⟩ := h
  simp only [portValue, hData, hStatus, hBank, hBank', hFE, or_self, ↓reduceIte]

/-- Only the data port has a side effect. -/
theorem afterPortIn_of_ne (h : p ≠ 0x68) : afterPortIn s p = s := by
  rw [afterPortIn, if_neg h]

theorem portIn_of_cons {v : Byte} {rest : List Byte} (h : s.inq = v :: rest) :
    portValue s 0x68 = v ∧ afterPortIn s 0x68 = { s with inq := rest } ∧ portValue s 0x6D = 0x61 := by
  simp [portValue, afterPortIn, h]

theorem portIn_of_nil (h : s.inq = []) :
    portValue s 0x68 = 0x00 ∧ afterPortIn s 0x68 = s ∧ portValue s 0x6D = 0x60 := by
  have hinq : s.inq.drop 1 = s.inq := by rw [h]; rfl
  have hafter : afterPortIn s 0x68 = s := by rw [afterPortIn, if_pos rfl, hinq]
  exact ⟨by simp [portValue, h], hafter, by simp [portValue, h]⟩

end

/-! ### `PortOut` -/

theorem portOut_other {s t : State} {p v : Byte} (h : p ∉ [0x68, 0x78, 0x7C, 0xEC, 0xED, 0xEE, 0xEF]) :
    portOut s t p v = .next t := by
  have hplain : p ∉ [0xEC, 0xED, 0xEE, 0xEF] := fun hp => h (List.mem_append_right [0x68, 0x78, 0x7C] hp)
  have hring : p ≠ 0x68 := by rintro rfl; exact h (by decide)
  have hbank : ¬(p = 0x78 ∨ p = 0x7C) := by rintro (rfl | rfl) <;> exact h (by decide)
  rw [portOut_plain s t v hplain, if_neg hring, if_neg hbank]

/-! ### The block forms -/

theorem sub_one_beq_zero (b : Byte) : (b - 1 == 0) = decide (b = 1) :=
  decide_eq_decide.2 sub_eq_zero

/-- `HL` and `B` counted and `PC` left by the repeat test, the flags aside (46 R393, R394). -/
def counted (t : State) (delta : Word) (again : Bool) (pc0 : Word) : State :=
  { ({ t with main := { t.main with b := t.main.b - 1 } }.setHL (t.hl + delta)) with
    pc := if again = true ∧ t.main.b ≠ 1 then pc0 else t.pc }

/-- A block form from its one step `u`: the repeat test on the new `B`, in a repeating form (46 R394). -/
def blockForm (again : Bool) (pc0 : Word) (u : State) : State := repeatWhile (again && u.main.b != 0) pc0 u

/-- The flags of a block input or output step (46 R393), the three open ones given. -/
def countFlags (t : State) (sf h pv : Bool) : DocFlags :=
  { s := sf, z := decide (t.main.b = 1), h := h, pv := pv, n := true, c := t.main.f.c }

theorem blockForm_countIo_eq (t : State) (delta : Word) (again : Bool) (pc0 : Word) :
    ∃ sf h pv y x k, blockForm again pc0 (countIo t delta) =
      flagged (counted t delta again pc0) (countFlags t sf h pv) y x k := by
  have test : (again && t.main.b - 1 != 0) = decide (again = true ∧ t.main.b ≠ 1) := by
    rw [bne, sub_one_beq_zero, ← decide_not, Bool.decide_and, Bool.decide_eq_true]
  rw [blockForm, b_countIo, test, countIo, setFlags_eq, blockIoFlags, sub_one_beq_zero]
  simp only [repeatWhile, decide_eq_true_eq]
  exact ⟨_, _, _, _, _, _, rfl⟩

section
variable {i : Instr} {s : State} {delta : Word} {again : Bool}

/-- A block output form: `PortOut` on the counted state (46 R399 to R402). -/
theorem exec_blockOut_flagged {p v : Byte}
    (h : exec i s = portOut s (blockForm again s.pc (countIo (s.retire 2 2) delta)) p v) :
    ∃ sf h pv y x k, exec i s =
      portOut s (flagged (counted (fetched s 2 2) delta again s.pc) (countFlags s sf h pv) y x k) p v := by
  obtain ⟨sf, hf, pv, y, x, k, he⟩ := blockForm_countIo_eq (s.retire 2 2) delta again s.pc
  rw [he, retire_eq] at h
  exact ⟨sf, hf, pv, y, x, k, h⟩

/-- A block input form: the byte read stored at `HL`, then the count (46 R393 to R396). -/
theorem exec_blockIn_flagged
    (h : exec i s = .next (blockForm again s.pc (blockIn (s.retire 2 2) delta))) :
    ∃ sf h pv y x k m, exec i s = .next (flagged
        { counted (fetched s 2 2) delta again s.pc with ram := m, inq := (afterPortIn s s.main.c).inq }
        (countFlags s sf h pv) y x k) ∧
      ramAfter s m [(s.hl, portValue s s.main.c)] := by
  rw [blockIn, retire_eq] at h
  obtain ⟨sf, hf, pv, y, x, k, he⟩ := blockForm_countIo_eq _ delta again s.pc
  rw [he] at h
  exact ⟨sf, hf, pv, y, x, k, _, h, ramAfter_store s s.hl _⟩

end

/-! ### The statements -/

/-- Settles O45: `PortIn` port by port, `IN` as one register of the fetched state written, a block form as one count
with its repeat test (none in `INI` and `IND`). -/
theorem input : Obligations.Input := by
  refine ⟨fun s v rest => portIn_of_cons, fun s => portIn_of_nil, fun s => ⟨rfl, rfl, rfl⟩,
    fun s p => portValue_other, fun s p => afterPortIn_of_ne,
    fun n s => ⟨decodesTo_two fun _ _ => rfl,
      exec_update_fetched (fun t => (afterPortIn t n).setReg .a (portValue t n)) rfl⟩,
    fun r s => ⟨?inCode, ?inPort⟩, fun s code i delta again h => ?block⟩
  case inCode => cases r <;> exact decodesTo_two fun _ _ => rfl
  case inPort =>
    rw [← shiftFlags_eq]
    exact exec_update_flagged (fun t => (afterPortIn t s.main.c).setReg r (portValue t s.main.c)) rfl
  case block =>
    obtain ⟨hcode, hexec⟩ : decodesTo [0xED, code] i ∧
        exec i s = .next (blockForm again s.pc (blockIn (s.retire 2 2) delta)) := by
      simp only [List.mem_cons, List.not_mem_nil, or_false, Prod.mk.injEq] at h
      obtain ⟨rfl, rfl, rfl, rfl⟩ | ⟨rfl, rfl, rfl, rfl⟩ | ⟨rfl, rfl, rfl, rfl⟩ |
        ⟨rfl, rfl, rfl, rfl⟩ := h
      all_goals exact ⟨decodesTo_two fun _ _ => rfl, rfl⟩
    exact ⟨hcode, exec_blockIn_flagged hexec⟩

/-- Settles O46: an `OUT` is `PortOut` on the fetched state, a block form on the counted one; each port takes its own
branch of `PortOut`. -/
theorem output : Obligations.Output := by
  refine ⟨fun n s => ⟨decodesTo_two fun _ _ => rfl, ?outA⟩, fun src s => ⟨?outCode, ?outC⟩,
    fun s code i delta again h => ?block,
    fun s t p v => ⟨rfl, rfl, rfl, rfl, rfl, rfl, rfl, portOut_other⟩⟩
  case outA => rw [← retire_eq]; rfl
  case outCode => cases src <;> exact decodesTo_two fun _ _ => rfl
  case outC => rw [← retire_eq]; rfl
  case block =>
    obtain ⟨hcode, hexec⟩ : decodesTo [0xED, code] i ∧
        exec i s = portOut s (blockForm again s.pc (countIo (s.retire 2 2) delta)) s.main.c (s.fetch s.hl) := by
      simp only [List.mem_cons, List.not_mem_nil, or_false, Prod.mk.injEq] at h
      obtain ⟨rfl, rfl, rfl, rfl⟩ | ⟨rfl, rfl, rfl, rfl⟩ | ⟨rfl, rfl, rfl, rfl⟩ |
        ⟨rfl, rfl, rfl, rfl⟩ := h
      all_goals exact ⟨decodesTo_two fun _ _ => rfl, rfl⟩
    exact ⟨hcode, exec_blockOut_flagged hexec⟩

end Sys2Proof.Machine
end

section
/-! SUPPORT. Block transfer and block search (47_block_transfer_search): a form is its one step with the repeat test, and
the one step is an update of the retired state that writes the flags. -/

namespace Sys2Proof.Machine

/-- The new counter is 0 where the old one is 1 (47 R420). -/
theorem word_sub_one_bne_zero (w : Word) : (w - 1 != 0) = decide (w ≠ 1) := by
  have hb : (w - 1 == 0) = decide (w = 1) := decide_eq_decide.2 sub_eq_zero
  rw [bne, hb, decide_not]

/-! ### Block transfer -/

/-- A transfer form from its one step `u`: the repeat test on the new `BC`, in a repeating form (47 R421). -/
def transferForm (again : Bool) (pc0 : Word) (u : State) : State := repeatWhile (again && u.bc != 0) pc0 u

/-- The byte moved, `HL`, `DE` and `BC` stepped and `PC` left by the repeat test, the flags aside (47 R420, R421). -/
def moved (t : State) (delta : Word) (again : Bool) (pc0 : Word) : State :=
  { ((((t.store t.de (t.fetch t.hl)).setHL (t.hl + delta)).setDE (t.de + delta)).setBC (t.bc - 1)) with
    pc := if again = true ∧ t.bc ≠ 1 then pc0 else t.pc }

theorem transferForm_blockMove_eq (t : State) (delta : Word) (again : Bool) (pc0 : Word) :
    transferForm again pc0 (blockMove t delta) =
      (moved t delta again pc0).setFlags { t.doc with h := false, n := false, pv := decide (t.bc ≠ 1) } := by
  have test : (again && t.bc - 1 != 0) = decide (again = true ∧ t.bc ≠ 1) := by
    rw [word_sub_one_bne_zero, Bool.decide_and, Bool.decide_eq_true]
  rw [transferForm, bc_blockMove, test, blockMove, word_sub_one_bne_zero]
  simp only [repeatWhile, decide_eq_true_eq]
  rfl

/-- Settles O54: each row is its code and one `blockMove` with its repeat test (none in `LDI` and `LDD`); its only store
is the one at `DE`. -/
theorem blockTransfer : Obligations.BlockTransfer := by
  intro s code i delta again h
  obtain ⟨hcode, hexec⟩ : decodesTo [0xED, code] i ∧
      exec i s = .next (transferForm again s.pc (blockMove (s.retire 2 2) delta)) := by
    simp only [List.mem_cons, List.not_mem_nil, or_false, Prod.mk.injEq] at h
    obtain ⟨rfl, rfl, rfl, rfl⟩ | ⟨rfl, rfl, rfl, rfl⟩ | ⟨rfl, rfl, rfl, rfl⟩ | ⟨rfl, rfl, rfl, rfl⟩ := h
    all_goals exact ⟨decodesTo_two fun _ _ => rfl, rfl⟩
  rw [transferForm_blockMove_eq] at hexec
  obtain ⟨y, x, k, he⟩ := exec_update_flagged (moved · delta again s.pc) hexec
  exact ⟨hcode, y, x, k, _, he, ramAfter_store s s.de (s.fetch s.hl)⟩

/-! ### Block search -/

section
variable (a v : Byte)

theorem compare_res_toNat : ((sub8 a v false).res.toNat : Int) = ((a.toNat : Int) - v.toNat) % 256 := by
  rw [sub8_res_toNat, Bool.toNat_false, Nat.cast_zero, sub_zero]

theorem compare_s_eq : (sub8 a v false).flags.s = decide (128 ≤ ((a.toNat : Int) - v.toNat) % 256) := by
  have hs : (sub8 a v false).flags.s = decide (128 ≤ (sub8 a v false).res.toNat) := getLsbD_seven _
  rw [hs, decide_eq_decide, ← compare_res_toNat]
  omega

theorem compare_z_eq : (sub8 a v false).flags.z = decide (a = v) := by
  have hz : (sub8 a v false).flags.z = decide ((sub8 a v false).res.toNat = 0) := beq_zero_eq _
  rw [hz, decide_eq_decide, ← BitVec.toNat_inj]
  have hres := compare_res_toNat a v
  omega

theorem compare_h_eq : (sub8 a v false).flags.h = decide (a.toNat % 16 < v.toNat % 16) :=
  decide_eq_decide.2 (by rw [Bool.toNat_false]; omega)

/-- The flags of a comparison, `P/V` and `C` aside (47 R424). -/
theorem compare_flags_eq (pv c : Bool) :
    { (sub8 a v false).flags with pv := pv, c := c } =
      ({ s := decide (128 ≤ ((a.toNat : Int) - v.toNat) % 256), z := decide (a = v),
         h := decide (a.toNat % 16 < v.toNat % 16), pv := pv, n := true, c := c } : DocFlags) := by
  rw [← compare_s_eq, ← compare_z_eq, ← compare_h_eq]
  rfl

end

/-- A search form from its one step `u`: the repeat test on the new `BC` and on `Z`, in a repeating form (47 R425). -/
def searchForm (again : Bool) (pc0 : Word) (u : State) : State :=
  repeatWhile (again && (u.bc != 0 && !u.main.f.z)) pc0 u

/-- `HL` and `BC` stepped and `PC` left by the repeat test, the flags aside (47 R424, R425). -/
def searched (t : State) (delta : Word) (again : Bool) (pc0 : Word) : State :=
  { ((t.setHL (t.hl + delta)).setBC (t.bc - 1)) with
    pc := if again = true ∧ t.bc ≠ 1 ∧ t.main.a ≠ t.fetch t.hl then pc0 else t.pc }

theorem searchForm_blockCompare_eq (t : State) (delta : Word) (again : Bool) (pc0 : Word) :
    searchForm again pc0 (blockCompare t delta) =
      (searched t delta again pc0).setFlags
        { (sub8 t.main.a (t.fetch t.hl) false).flags with pv := decide (t.bc ≠ 1), c := t.main.f.c } := by
  have test : (again && (t.bc - 1 != 0 && !(sub8 t.main.a (t.fetch t.hl) false).flags.z)) =
      decide (again = true ∧ t.bc ≠ 1 ∧ t.main.a ≠ t.fetch t.hl) := by
    rw [word_sub_one_bne_zero, compare_z_eq, ← decide_not, Bool.decide_and, Bool.decide_and, Bool.decide_eq_true]
  rw [searchForm, bc_blockCompare, z_blockCompare, test, blockCompare, word_sub_one_bne_zero]
  simp only [repeatWhile, decide_eq_true_eq]
  rfl

/-- Settles O55: each row is its code and one `blockCompare` with its repeat test (none in `CPI` and `CPD`). -/
theorem blockSearch : Obligations.BlockSearch := by
  intro s code i delta again h
  obtain ⟨hcode, hexec⟩ : decodesTo [0xED, code] i ∧
      exec i s = .next (searchForm again s.pc (blockCompare (s.retire 2 2) delta)) := by
    simp only [List.mem_cons, List.not_mem_nil, or_false, Prod.mk.injEq] at h
    obtain ⟨rfl, rfl, rfl, rfl⟩ | ⟨rfl, rfl, rfl, rfl⟩ | ⟨rfl, rfl, rfl, rfl⟩ | ⟨rfl, rfl, rfl, rfl⟩ := h
    all_goals exact ⟨decodesTo_two fun _ _ => rfl, rfl⟩
  rw [searchForm_blockCompare_eq, compare_flags_eq] at hexec
  exact ⟨hcode, exec_update_flagged (searched · delta again s.pc) hexec⟩

end Sys2Proof.Machine
end

section
/-! SUPPORT. Whole-machine rules (10_state section 7, 49 R500 to R510, 60 R601, R605): what a completed instruction can be,
and from that the invariant, the transitions of `HSTATE`, and who writes the dispatcher's state. -/

namespace Sys2Proof.Machine

/-! ### What a completed instruction can be -/

/-- What an executed instruction can have done to the state before it. -/
inductive Executed (i : Instr) (s t : State) : Prop where
  | quiet (hi : i ≠ .halt) (h : Quiet s t)
  | halt (hi : i = .halt) (h : t = (s.retire 1 1).raiseHalt)
  | annulled (ho : isOutput i = true) (h : t = s.annul) (hq : s.inq = [])
  | output (ho : isOutput i = true) (u : State) (h : Quiet s u) (hf : PortFrame u t) (hs : Sound s → Sound t)

theorem Quiet.sound {s t : State} (h : Quiet s t) (hs : Sound s) : Sound t :=
  ⟨h.ram hs.1, fun j => by rw [State.unitAt, h.units]; exact hs.2 j⟩

theorem exec_executed {i : Instr} {s t : State} (h : exec i s = .next t) : Executed i s t := by
  cases ho : isOutput i
  case true =>
    obtain ⟨u, v, he, hu, -, -, hinq⟩ := exec_output ho s
    rw [he] at h
    rcases portOut_next h with ⟨-, ht, hq⟩ | hf
    · exact .annulled ho ht (hinq ▸ hq)
    · exact .output ho u hu hf fun hs => sound_portOut hs (hu.sound hs) h
  case false =>
    by_cases hh : i = .halt
    · subst hh; obtain ⟨rfl⟩ := h; exact .halt rfl rfl
    · obtain ⟨u, he, hu⟩ := exec_quiet ho hh s
      obtain ⟨rfl⟩ := he ▸ h
      exact .quiet hh hu

/-- What a step can be, and whether the machine was halted before it. -/
theorem step_next_of_halted {s t : State} (h : step s = .next t) :
    (s.halted = true ∧ t = s) ∨ (s.halted = false ∧ ∃ i, exec i s = .next t) ∨
      (s.halted = false ∧ ∃ op, t = s.raiseUnimplemented op) := by
  cases hs : s.halted
  case true => exact .inl ⟨rfl, by have := haltedStepDoesNothing s hs; rw [h] at this; injection this⟩
  case false =>
    rw [step, hs] at h
    cases hd : s.decodeAtPC with
    | instr i len => rw [hd] at h; exact .inr (.inl ⟨rfl, i, h⟩)
    | unimplemented op seen => rw [hd] at h; obtain ⟨rfl⟩ := h; exact .inr (.inr ⟨rfl, op, rfl⟩)

/-! ### The invariant -/

theorem State.Inv.sound {s : State} (h : s.Inv) : Sound s := ⟨h.ram, h.units⟩

/-- A step that leaves `rom`, `HSTATE`, `halted` and the report keeps the invariant where it keeps the port level's
clauses and an empty input ring. -/
theorem State.Inv.congr {s t : State} (h : s.Inv) (hrom : t.rom = s.rom) (hs : Sound t) (hst : t.hstate = s.hstate)
    (hh : t.halted = s.halted) (hr : t.report = s.report) (hq : s.inq = [] → t.inq = []) : t.Inv where
  rom     := hrom ▸ h.rom
  ram     := hs.1
  units   := hs.2
  halted  := by rw [hst, hh]; exact h.halted
  waiting := fun hw => hq (h.waiting (hst ▸ hw))
  report  := by rw [hr, hh]; exact h.report

theorem State.Inv.quiet {s t : State} (h : s.Inv) (hq : Quiet s t) : t.Inv :=
  h.congr hq.rom (hq.sound h.sound) hq.hstate hq.halted hq.report hq.inq

/-- The port level touches neither `HSTATE`, `halted` and the report nor the two configuration flags. -/
theorem PortFrame.kept {t u : State} (h : PortFrame t u) :
    u.hstate = t.hstate ∧ u.halted = t.halted ∧ u.report = t.report ∧ u.booting = t.booting ∧
      u.blockingAllowed = t.blockingAllowed :=
  ⟨congrArg (·.hstate) h.1, congrArg (·.halted) h.1, congrArg (·.report) h.1, congrArg (·.booting) h.1,
    congrArg (·.blockingAllowed) h.1⟩

/-- The annulled step of a running machine: it waits only with an empty ring (49 R510, R521). -/
theorem State.Inv.annul {s : State} (h : s.Inv) (hs : s.halted = false) (hq : s.inq = []) : s.annul.Inv := by
  unfold State.annul
  split
  · exact h
  · exact ⟨h.rom, h.ram, h.units, by simp [hs], fun _ => hq, h.report⟩

/-- Both events of 60_exceptions that halt set `halted`, `HSTATE` and the report together. -/
theorem State.Inv.halting {s : State} (h : s.Inv) (r : HaltReport) :
    { s with halted := true, report := some r, hstate := .halted }.Inv :=
  ⟨h.rom, h.ram, h.units, by simp, by simp, by simp⟩

theorem exec_inv {i : Instr} {s t : State} (hs : s.halted = false) (hi : s.Inv) (h : exec i s = .next t) : t.Inv := by
  rcases exec_executed h with ⟨-, hq⟩ | ⟨-, rfl⟩ | ⟨-, rfl, hq⟩ | ⟨-, u, hu, hf, hsound⟩
  case quiet => exact hi.quiet hq
  case halt => exact (hi.quiet (Quiet.rfl.retire 1 1)).halting _
  case annulled => exact hi.annul hs hq
  case output =>
    obtain ⟨hst, hh, hr, -, -⟩ := hf.kept
    exact (hi.quiet hu).congr hf.rom (hsound hi.sound) hst hh hr hf.2

/-- Settles O10: `exec_inv` for an executed instruction, `Inv.halting` for the unimplemented opcode. -/
theorem invKept : Obligations.InvKept := by
  intro s t hi h
  rcases step_next_of_halted h with ⟨-, rfl⟩ | ⟨hs, i, he⟩ | ⟨-, op, rfl⟩
  · exact hi
  · exact exec_inv hs hi he
  · exact hi.halting _

/-- Settles O9: both memories are blank and every unit is absent. -/
theorem invAtReset : Obligations.InvAtReset where
  rom     := wf_blank
  ram     := wf_blank
  units i := by
    have hu : State.reset.unitAt i = DiskUnit.absent := Vector.getElem_replicate i.isLt
    rw [hu]; exact DiskUnit.ok_absent
  halted  := by decide
  waiting := fun _ => rfl
  report  := by decide

/-! ### The transitions of `HSTATE` -/

/-- Settles O16: an instruction by what it can be, an annulled one by whether blocking is allowed. -/
theorem hStateTransitions : Obligations.HStateTransitions := by
  intro s t _ h
  rcases step_next_of_halted h with ⟨-, rfl⟩ | ⟨hs, i, he⟩ | ⟨hs, op, rfl⟩
  · exact .inl ⟨rfl, rfl⟩
  · rcases exec_executed he with ⟨-, hq⟩ | ⟨-, rfl⟩ | ⟨-, rfl, hq⟩ | ⟨-, u, hu, hf, -⟩
    case quiet => exact .inl ⟨hq.hstate, hq.halted⟩
    case halt => exact .inr (.inr ⟨rfl, rfl, hs⟩)
    case annulled =>
      cases hb : s.blockingAllowed
      case true => exact .inl (by simp [State.annul, hb])
      case false => exact .inr (.inl (by simp [State.annul, hb, hs, hq]))
    case output =>
      obtain ⟨hst, hh, -, -, -⟩ := hf.kept
      exact .inl ⟨hst.trans hu.hstate, hh.trans hu.halted⟩
  · exact .inr (.inr ⟨rfl, rfl, hs⟩)

/-! ### Who writes the dispatcher's state -/

/-- The six input instructions (46 section 1). -/
def isInput : Instr → Bool
  | .inAPortN _ | .inRPortC _ | .ini | .inir | .ind | .indr => true
  | _ => false

@[simp] theorem State.setPairDD_inq (s : State) (dd : PairDD) (v : Word) : (s.setPairDD dd v).inq = s.inq := by
  rw [State.setPairDD_eq]

@[simp] theorem State.setPairQQ_inq (s : State) (qq : PairQQ) (v : Word) : (s.setPairQQ qq v).inq = s.inq := by
  rw [State.setPairQQ_eq]

theorem ite_inq {s t u : State} (c : Prop) [Decidable c] (ht : t.inq = s.inq) (hu : u.inq = s.inq) :
    (if c then t else u).inq = s.inq := by
  split
  · exact ht
  · exact hu

/-- Outside input and output no instruction touches the input ring: a pair written through its own law, a jump by whether
it is taken, the other meanings do not name the ring. -/
theorem exec_inq {i : Instr} (ho : isOutput i = false) (hi : isInput i = false) {s t : State}
    (h : exec i s = .next t) : t.inq = s.inq := by
  cases i
  case outPortNA | outPortCR | outi | otir | outd | otdr => exact absurd ho.symm Bool.false_ne_true
  case inAPortN | inRPortC | ini | inir | ind | indr => exact absurd hi.symm Bool.false_ne_true
  case ldDDNN | ldDDAtNN | incSS | decSS => obtain ⟨rfl⟩ := h; exact State.setPairDD_inq _ _ _
  case popQQ => obtain ⟨rfl⟩ := h; exact State.setPairQQ_inq _ _ _
  case jpCcNN | jrCE | jrNcE | jrZE | jrNzE | djnzE | callCcNN | retCc =>
    obtain ⟨rfl⟩ := h
    exact ite_inq _ rfl rfl
  all_goals obtain ⟨rfl⟩ := h; rfl

/-- What an instruction outside the output instructions leaves of the dispatcher's state. -/
theorem exec_dispatcher {i : Instr} (ho : isOutput i = false) {s t : State} (h : exec i s = .next t) :
    t.bank = s.bank ∧ t.initMask = s.initMask ∧ t.outq = s.outq ∧ t.units = s.units := by
  rcases exec_executed h with ⟨-, hq⟩ | ⟨-, rfl⟩ | ⟨ht, -⟩ | ⟨ht, -⟩
  case quiet => exact ⟨hq.bank, hq.initMask, hq.outq, hq.units⟩
  case halt => exact ⟨rfl, rfl, rfl, rfl⟩
  case annulled | output => exact absurd (ho.symm.trans ht) Bool.false_ne_true

/-- No instruction writes `BOOTING` or `BlockingAllowed`, and only `HALT` writes `halted` and the report. -/
theorem exec_halted {i : Instr} {s t : State} (h : exec i s = .next t) :
    (i ≠ .halt → t.halted = s.halted ∧ t.report = s.report) ∧
      t.booting = s.booting ∧ t.blockingAllowed = s.blockingAllowed := by
  rcases exec_executed h with ⟨-, hq⟩ | ⟨hi, rfl⟩ | ⟨-, rfl, -⟩ | ⟨-, u, hu, hf, -⟩
  case quiet => exact ⟨fun _ => ⟨hq.halted, hq.report⟩, hq.booting, hq.blockingAllowed⟩
  case halt => exact ⟨fun hne => absurd hi hne, rfl, rfl⟩
  case annulled => rw [State.annul_eq]; exact ⟨fun _ => ⟨rfl, rfl⟩, rfl, rfl⟩
  case output =>
    obtain ⟨-, hh, hr, hb, ha⟩ := hf.kept
    exact ⟨fun _ => ⟨hh.trans hu.halted, hr.trans hu.report⟩, hb.trans hu.booting, ha.trans hu.blockingAllowed⟩

/-- Settles O13: the input ring by `exec_inq`, the rest by what an executed instruction can be. -/
theorem dispatcherStateWriters : Obligations.DispatcherStateWriters := by
  intro i s t h
  obtain ⟨hhalt, hboot, hblock⟩ := exec_halted h
  refine ⟨fun ho => exec_dispatcher ho h, fun ho hini hinir hind hindr hinA hinC => exec_inq ho ?input h, hhalt, hboot,
    hblock⟩
  case input =>
    cases i
    case inAPortN n => exact absurd rfl (hinA n)
    case inRPortC r => exact absurd rfl (hinC r)
    case ini => exact absurd rfl hini
    case inir => exact absurd rfl hinir
    case ind => exact absurd rfl hind
    case indr => exact absurd rfl hindr
    all_goals rfl

/-! ### Refusals -/

theorem HbiosFn.ofCode_eq_sysboot : ∀ fn : Byte, HbiosFn.ofCode fn = .sysboot ↔ fn = 0xFE := by decide

/-- The HBIOS dispatch refuses SYSBOOT and nothing else (49 R548). -/
theorem hbiosDispatch_refused_iff {s t : State} : (∃ r, hbiosDispatch s t = .refused r) ↔ t.main.b = 0xFE := by
  rw [← HbiosFn.ofCode_eq_sysboot, hbiosDispatch]
  cases HbiosFn.ofCode t.main.b <;> simp

/-- The bank copy refuses an empty count and nothing else (49 R555). -/
theorem bankCopy_refused_iff {t : State} : (∃ r, bankCopy t = .refused r) ↔ t.bc = 0 := by
  rw [bankCopy]
  by_cases h : t.bc = 0
  · rw [if_pos h]; exact iff_of_true ⟨_, rfl⟩ h
  · rw [if_neg h]; exact iff_of_false nofun h

theorem State.bc_eq_zero {t : State} : t.bc = 0 ↔ t.main.b = 0 ∧ t.main.c = 0 := by
  rw [← BitVec.toNat_inj, ← BitVec.toNat_inj, ← BitVec.toNat_inj, State.bc, mkWord_toNat]
  simp

/-- `PortOut` refuses the actions of 60 R605 and no other. -/
theorem portOut_refused_iff {s t : State} {p v : Byte} :
    (∃ r, portOut s t p v = .refused r) ↔
      p = 0xED ∨ p = 0xEE ∨ (p = 0xEF ∧ t.main.b = 0xFE) ∨ (p = 0xEC ∧ t.main.b = 0 ∧ t.main.c = 0) := by
  by_cases hp : p ∈ [0xEC, 0xED, 0xEE, 0xEF]
  · simp only [List.mem_cons, List.not_mem_nil, or_false] at hp
    rcases hp with rfl | rfl | rfl | rfl
    · have h : portOut s t 0xEC v = bankCopy t := rfl
      rw [h, bankCopy_refused_iff, State.bc_eq_zero]; simp
    · exact iff_of_true ⟨_, rfl⟩ (.inl rfl)
    · exact iff_of_true ⟨_, rfl⟩ (.inr (.inl rfl))
    · have h : portOut s t 0xEF v = hbiosDispatch s t := rfl
      rw [h, hbiosDispatch_refused_iff]; simp
  · rw [portOut_plain s t v hp]
    simp only [List.mem_cons, List.not_mem_nil, or_false, not_or] at hp
    simp only [hp, reduceCtorEq, exists_false, false_and, or_self]

/-- Settles O15: an output instruction is `PortOut` on the state its own updates leave; every other completes. -/
theorem refusalsExactly : Obligations.RefusalsExactly := by
  intro i s
  cases ho : isOutput i
  case true =>
    obtain ⟨t, v, he, -, hb, hc, -⟩ := exec_output ho s
    rw [he, portOut_refused_iff, hb, hc]
    simp
  case false =>
    refine iff_of_false ?_ (fun h => Bool.false_ne_true h.1)
    rintro ⟨r, hr⟩
    by_cases hh : i = .halt
    · subst hh; cases hr
    · obtain ⟨t, he, -⟩ := exec_quiet ho hh s
      cases he.symm.trans hr

/-! ### Output instructions that complete -/

/-- `PortOut` on a port outside `0xEC` to `0xEF` completes (49 R502). -/
theorem portOut_completes (s t : State) (v : Byte) {p : Byte} (h : p ∉ [0xEC, 0xED, 0xEE, 0xEF]) :
    ∃ u, portOut s t p v = .next u ∧ u.outq = (if p = 0x68 then t.outq ++ [v] else t.outq) ∧
      u.bank = (if p = 0x78 ∨ p = 0x7C then v else t.bank) ∧
      u.main = t.main ∧ u.sp = t.sp ∧ u.inq = t.inq ∧ u.units = t.units := by
  refine ⟨_, portOut_plain s t v h, ?_⟩
  by_cases hring : p = 0x68
  · subst hring; exact ⟨rfl, rfl, rfl, rfl, rfl, rfl⟩
  · by_cases hbank : p = 0x78 ∨ p = 0x7C
    · simp only [if_neg hring, if_pos hbank]; exact ⟨rfl, rfl, rfl, rfl, rfl, rfl⟩
    · simp only [if_neg hring, if_neg hbank, and_self]

/-- Settles O47: each row is `PortOut` of its byte on a state that differs from `s` in `PC`, `R`, `ICOUNT`, `B`, `HL`
and the flags only. -/
theorem outputCompletes : Obligations.OutputCompletes := by
  intro src n s i v h hp
  obtain ⟨t, he, houtq, hbank, hb, ha, hsp, hinq, hunits⟩ : ∃ t, exec i s = portOut s t (outputPort s i) v ∧
      t.outq = s.outq ∧ t.bank = s.bank ∧ t.main.b = outputB s i ∧ t.main.a = s.main.a ∧ t.sp = s.sp ∧
      t.inq = s.inq ∧ t.units = s.units := by
    simp only [List.mem_cons, List.not_mem_nil, or_false, Prod.mk.injEq] at h
    obtain ⟨rfl, rfl⟩ | ⟨rfl, rfl⟩ | ⟨rfl, rfl⟩ | ⟨rfl, rfl⟩ | ⟨rfl, rfl⟩ | ⟨rfl, rfl⟩ := h
    all_goals exact ⟨_, rfl, rfl, rfl, rfl, rfl, rfl, rfl, rfl⟩
  obtain ⟨u, hu, houtq', hbank', hmain, hsp', hinq', hunits'⟩ := portOut_completes s t v hp
  exact ⟨u, he.trans hu, by rw [houtq', houtq], by rw [hbank', hbank], hmain ▸ hb, hmain ▸ ha, hsp'.trans hsp,
    hinq'.trans hinq, hunits'.trans hunits⟩

/-! ### The unimplemented opcode -/

theorem decode4_of_unimplemented {bytes : List Byte} {op : Byte} (h : decode bytes = .error (.unimplementedOpcode op)) :
    ∃ seen, decode4 (bytes.getD 0 0) (bytes.getD 1 0) (bytes.getD 2 0) (bytes.getD 3 0) = .unimplemented op seen := by
  unfold decode at h
  split at h
  next => split at h <;> cases h
  next op' seen hd =>
    split at h
    next => cases h
    next => obtain ⟨rfl⟩ := h; exact ⟨seen, hd⟩

/-- Settles O7: the decoder looks at no byte past the fourth. -/
theorem unimplementedStep : Obligations.UnimplementedStep := by
  intro s op rest hs h
  obtain ⟨seen, hd⟩ := decode4_of_unimplemented h
  have hpc : s.decodeAtPC = .unimplemented op seen := hd
  rw [step, hs, hpc]
  rfl

/-! ### The fetch of an executed instruction -/

theorem opcodeFetches_eq (i : Instr) :
    i.opcodeFetches = if (encode i).head? = some 0xCB ∨ (encode i).head? = some 0xDD ∨ (encode i).head? = some 0xED ∨
      (encode i).head? = some 0xFD then 2 else 1 := by
  unfold Instr.opcodeFetches
  cases encode i <;> simp

/-- `t` has `ICOUNT` one up from `s` and `R` stepped for the opcode fetches of `i` (10 R29, R42). -/
def Counted (i : Instr) (s t : State) : Prop := t.icount = s.icount + 1 ∧ t.rReg = stepR s.rReg i.opcodeFetches

theorem counted_ite {i : Instr} {s t u : State} (c : Prop) [Decidable c] (ht : Counted i s t) (hu : Counted i s u) :
    Counted i s (if c then t else u) := by
  split
  · exact ht
  · exact hu

/-- A restart opcode fetches once: its low three bits are 7 (30 R126), those of `CB`, `DD`, `ED`, `FD` are 3 or 5. -/
theorem opcodeFetches_rst (t : Nat) : (Instr.rst t).opcodeFetches = 1 := by
  have low : (opcode (0xC7 + 8 * t)).toNat % 8 = 7 := by
    simp only [opcode, BitVec.toNat_ofNat]; omega
  refine if_neg ?_
  rintro (h | h | h | h) <;> (rw [h] at low; exact absurd low (by decide))

/-- An instruction outside the output instructions and `LD R,A` counts its own opcode fetches: its opcode byte by its
register, pair or condition, and a jump whether it is taken or not. -/
theorem exec_counted {i : Instr} (ho : isOutput i = false) (hi : i ≠ .ldRA) {s t : State} (h : exec i s = .next t) :
    Counted i s t := by
  cases i
  case ldRA => exact absurd rfl hi
  case outPortNA | outPortCR | outi | otir | outd | otdr => exact absurd ho.symm Bool.false_ne_true
  case ldRR r src => obtain ⟨rfl⟩ := h; cases r <;> cases src <;> exact ⟨rfl, rfl⟩
  case ldRN x _ | ldRAtHL x | ldAtHLR x | addR x | adcR x | subR x | sbcR x | andR x | xorR x | orR x | cpR x
    | incR x | decR x | ldDDNN x _ | ldDDAtNN x _ | addHLSS x | incSS x | decSS x | pushQQ x | popQQ x =>
    obtain ⟨rfl⟩ := h
    cases x <;> exact ⟨rfl, rfl⟩
  case jpCcNN cc _ | callCcNN cc _ | retCc cc =>
    obtain ⟨rfl⟩ := h
    cases cc <;> exact counted_ite _ ⟨rfl, rfl⟩ ⟨rfl, rfl⟩
  case jrCE | jrNcE | jrZE | jrNzE | djnzE =>
    obtain ⟨rfl⟩ := h
    exact counted_ite _ ⟨rfl, rfl⟩ ⟨rfl, rfl⟩
  case rst k =>
    obtain ⟨rfl⟩ := h
    exact ⟨rfl, by rw [opcodeFetches_rst]; rfl⟩
  all_goals obtain ⟨rfl⟩ := h; exact ⟨rfl, rfl⟩

/-- Settles O8: an output instruction is annulled or keeps what its fetch counted; `LD R,A` counts in `ICOUNT` alone. -/
theorem refreshAndCount : Obligations.RefreshAndCount := by
  intro i s t h
  rw [← opcodeFetches_eq, ← stepR_eq]
  cases ho : isOutput i
  case true =>
    rcases exec_output_next ho h with rfl | hp
    · exact .inl s.annul_eq
    · exact .inr ⟨hp.icount, fun _ => hp.rReg⟩
  case false =>
    by_cases hi : i = .ldRA
    · subst hi; obtain ⟨rfl⟩ := h; exact .inr ⟨rfl, fun hne => absurd rfl hne⟩
    · obtain ⟨hcount, hr⟩ := exec_counted ho hi h
      exact .inr ⟨hcount, fun _ => hr⟩

end Sys2Proof.Machine
end

section
/-! SUPPORT. The HBIOS family (49 section 3) and the bank copy (R555): the dispatch code by code, and what each function
does to the state the output instruction left. -/

namespace Sys2Proof.Machine

/-! ### The dispatch, code by code (49 R519) -/

section
variable {s t : State}

theorem hbiosDispatch_cioIn (h : t.main.b = 0x00) : hbiosDispatch s t = .next (cioIn s t) := by
  rw [hbiosDispatch, h]; rfl

theorem hbiosDispatch_cioOut (h : t.main.b = 0x01) : hbiosDispatch s t = .next (cioOut t) := by
  rw [hbiosDispatch, h]; rfl

theorem hbiosDispatch_cioInStatus (h : t.main.b = 0x02) : hbiosDispatch s t = .next (cioInStatus t) := by
  rw [hbiosDispatch, h]; rfl

theorem hbiosDispatch_cioOutStatus (h : t.main.b = 0x03) : hbiosDispatch s t = .next (cioOutStatus t) := by
  rw [hbiosDispatch, h]; rfl

theorem hbiosDispatch_dioSeek (h : t.main.b = 0x12) : hbiosDispatch s t = .next (dioSeek t) := by
  rw [hbiosDispatch, h]; rfl

theorem hbiosDispatch_dioRead (h : t.main.b = 0x13) : hbiosDispatch s t = .next (dioRead t) := by
  rw [hbiosDispatch, h]; rfl

theorem hbiosDispatch_dioWrite (h : t.main.b = 0x14) : hbiosDispatch s t = .next (dioWrite t) := by
  rw [hbiosDispatch, h]; rfl

theorem hbiosDispatch_dioCap (h : t.main.b = 0x1A) : hbiosDispatch s t = .next (dioCap t) := by
  rw [hbiosDispatch, h]; rfl

theorem hbiosDispatch_sysReset (h : t.main.b = 0xF0) : hbiosDispatch s t = .next (sysReset t) := by
  rw [hbiosDispatch, h]; rfl

theorem hbiosDispatch_sysVer (h : t.main.b = 0xF1) : hbiosDispatch s t = .next (sysVer t) := by
  rw [hbiosDispatch, h]; rfl

theorem hbiosDispatch_sysSetBank (h : t.main.b = 0xF2) : hbiosDispatch s t = .next (sysSetBank t) := by
  rw [hbiosDispatch, h]; rfl

theorem hbiosDispatch_sysGetBank (h : t.main.b = 0xF3) : hbiosDispatch s t = .next (sysGetBank t) := by
  rw [hbiosDispatch, h]; rfl

theorem hbiosDispatch_sysSetCopy (h : t.main.b = 0xF4) : hbiosDispatch s t = .next (sysSetCopy t) := by
  rw [hbiosDispatch, h]; rfl

theorem hbiosDispatch_sysPeek (h : t.main.b = 0xFA) : hbiosDispatch s t = .next (sysPeek t) := by
  rw [hbiosDispatch, h]; rfl

theorem hbiosDispatch_sysPoke (h : t.main.b = 0xFB) : hbiosDispatch s t = .next (sysPoke t) := by
  rw [hbiosDispatch, h]; rfl

theorem hbiosDispatch_sysBoot (h : t.main.b = 0xFE) : hbiosDispatch s t = .refused .sysBoot := by
  rw [hbiosDispatch, h]; rfl

/-- The codes the spec interprets (49 R519); every other is `hbios_ext`'s. -/
theorem HbiosFn.ofCode_eq_ext : ∀ fn : Byte,
    fn ∉ [0x00, 0x01, 0x02, 0x03, 0x12, 0x13, 0x14, 0x1A, 0xF0, 0xF1, 0xF2, 0xF3, 0xF4, 0xFA, 0xFB, 0xFE] →
    HbiosFn.ofCode fn = .ext := by
  decide

theorem hbiosDispatch_ext (h : t.main.b ∉
      [0x00, 0x01, 0x02, 0x03, 0x12, 0x13, 0x14, 0x1A, 0xF0, 0xF1, 0xF2, 0xF3, 0xF4, 0xFA, 0xFB, 0xFE]) :
    hbiosDispatch s t = .next (hbiosExtended t) := by
  rw [hbiosDispatch, HbiosFn.ofCode_eq_ext _ h]

end

/-! ### The console -/

theorem cioIn_of_cons {s t : State} {v : Byte} {rest : List Byte} (h : t.inq = v :: rest) :
    cioIn s t = { t with inq := rest, main := { t.main with e := v, a := 0x00 } } := by
  rw [cioIn, h]

theorem cioIn_of_nil {s t : State} (h : t.inq = []) : cioIn s t = s.annul := by
  rw [cioIn, h]

theorem State.annul_of_not_blocking {s : State} (h : s.blockingAllowed = false) :
    s.annul = { s with hstate := .needsInput } := by
  rw [State.annul, h]; rfl

theorem State.annul_of_blocking {s : State} (h : s.blockingAllowed = true) : s.annul = s := by
  rw [State.annul, h]; rfl

/-- CIOIN on an empty ring annuls the whole output instruction (46 R390 item 4, 49 R521). -/
theorem exec_output_annulled {i : Instr} {s : State} (ho : isOutput i = true) (hp : outputPort s i = 0xEF)
    (hb : outputB s i = 0x00) (hq : s.inq = []) : exec i s = .next s.annul := by
  obtain ⟨t, v, he, -, hb', -, hq'⟩ := exec_output ho s
  have hport : portOut s t 0xEF v = hbiosDispatch s t := rfl
  rw [he, hp, hport, hbiosDispatch_cioIn (hb'.trans hb), cioIn_of_nil (hq'.trans hq)]

/-- Settles O49: each function by its code, CIOIN by the ring, its annulment by `exec_output_annulled`. -/
theorem hbiosConsole : Obligations.HbiosConsole := by
  refine ⟨fun s t => ⟨fun v rest hb hq => ?_, fun hb hq ha => ?_, fun hb hq ha => ?_, fun hb => ?_, fun hb => ?_,
    fun hb => ?_⟩, fun i s ho hp hb hq => ⟨fun ha => ?_, fun ha => ?_⟩⟩
  · rw [hbiosDispatch_cioIn hb, cioIn_of_cons hq]
  · rw [hbiosDispatch_cioIn hb, cioIn_of_nil hq, State.annul_of_not_blocking ha]
  · rw [hbiosDispatch_cioIn hb, cioIn_of_nil hq, State.annul_of_blocking ha]
  · exact hbiosDispatch_cioOut hb
  · rw [hbiosDispatch_cioInStatus hb, cioInStatus]
    simp only [List.isEmpty_iff]
    rfl
  · exact hbiosDispatch_cioOutStatus hb
  · rw [exec_output_annulled ho hp hb hq, State.annul_of_not_blocking ha]
  · rw [exec_output_annulled ho hp hb hq, State.annul_of_blocking ha]

/-! ### The system functions -/

/-- ROM bank 0 is never a first select of a RAM bank (20 R75). -/
theorem resetCallback_eq (warm : Bool) (t : State) :
    resetCallback warm t = { (if warm then t else t.clearRam.copyHead 0) with bank := 0x00, pc := 0x0000 } := by
  cases warm <;> rw [resetCallback, selectBank_again rfl]

/-- A cold reset leaves the head of `rom` at the bottom of a cleared `ram` (70 R653). -/
theorem read_headCopied_blank (rom : Memory) (k : Nat) :
    (headCopied rom Memory.blank 0).read k = if k < 512 then rom.read k else 0x00 := by
  rw [read_headCopied]; simp

theorem sysReset_warm {t : State} (h : t.main.e = 0x01) : sysReset t = { t with bank := 0x00, pc := 0x0000 } := by
  rw [sysReset, h, resetCallback_eq]; rfl

theorem sysReset_cold {t : State} (h : t.main.e ≠ 0x01) : sysReset t =
    { t with bank := 0x00, pc := 0x0000, ram := headCopied t.rom Memory.blank 0, initMask := 0 } := by
  rw [sysReset, beq_false_of_ne h, resetCallback_eq]; rfl

/-- Settles O50: each function by its code; the stores by `ramAfter_store_store` and `read_storeAt`. -/
theorem hbiosSystem : Obligations.HbiosSystem := by
  refine fun s t => ⟨fun hb he => ?warm, fun hb he => ?cold, hbiosDispatch_sysVer, hbiosDispatch_sysSetBank,
    hbiosDispatch_sysGetBank, fun hb => ⟨_, hbiosDispatch_sysSetCopy hb, ramAfter_store_store t _ _ _ _⟩,
    hbiosDispatch_sysPeek, fun hb => ⟨_, hbiosDispatch_sysPoke hb, fun k => read_storeAt _ _ t.ram k⟩,
    hbiosDispatch_sysBoot⟩
  case warm => rw [hbiosDispatch_sysReset hb, sysReset_warm he]
  case cold => exact ⟨_, by rw [hbiosDispatch_sysReset hb, sysReset_cold he], read_headCopied_blank t.rom⟩

/-! ### The bank copy -/

/-- The copy's loop, its last byte taken apart (49 R555). -/
theorem copyBytes_succ (sb db : Byte) (n : Nat) (src dst : Word) (s : State) :
    copyBytes sb db (n + 1) src dst s =
      (copyBytes sb db n src dst s).writeBank db (dst + BitVec.ofNat 16 n)
        ((copyBytes sb db n src dst s).readBank sb (src + BitVec.ofNat 16 n)) := by
  induction n generalizing src dst s with
  | zero => simp [copyBytes]
  | succ n ih => rw [copyBytes, ih, word_step, word_step]; rfl

theorem bankCopy_next {t : State} (h : t.bc ≠ 0) : bankCopy t =
    .next { (((t.setHL (Config.freeWord t.draws)).setDE (Config.freeWord (t.draws + 1))).setBC
        (Config.freeWord (t.draws + 2))) with
      ram := (copyBytes (t.fetch 0xFFE4) (t.fetch 0xFFE7) t.bc.toNat t.hl t.de t).ram, draws := t.draws + 3 } := by
  rw [bankCopy, if_neg h, copyBytes_eq]
  rfl

/-! ### The unit check (R530) -/

/-- Every disk function the spec interprets goes through the unit check. -/
theorem hbiosDispatch_disk {s t : State} (h : t.main.b ∈ [0x12, 0x13, 0x14, 0x1A]) :
    ∃ f, hbiosDispatch s t = .next (onUnit t f) := by
  simp only [List.mem_cons, List.not_mem_nil, or_false] at h
  rcases h with h | h | h | h
  · exact ⟨_, hbiosDispatch_dioSeek h⟩
  · exact ⟨_, hbiosDispatch_dioRead h⟩
  · exact ⟨_, hbiosDispatch_dioWrite h⟩
  · exact ⟨_, hbiosDispatch_dioCap h⟩

/-! ### DIOSEEK and DIOCAP -/

theorem toNat_append_byte {w : Nat} (x : BitVec w) (l : Byte) : (x ++ l).toNat = 256 * x.toNat + l.toNat := by
  have hl := l.isLt
  rw [BitVec.toNat_append, ← Nat.shiftLeft_add_eq_or_of_lt hl, Nat.shiftLeft_eq]; omega

theorem toNat_and_0x7F : ∀ d : Byte, (d &&& 0x7F#8).toNat = d.toNat % 128 := by decide

/-- DIOSEEK's sector number (49 R531). -/
theorem State.lba_toNat (t : State) : t.lba.toNat =
    t.main.d.toNat % 128 * 16777216 + t.main.e.toNat * 65536 + t.main.h.toNat * 256 + t.main.l.toNat := by
  rw [State.lba, toNat_append_byte, toNat_append_byte, toNat_append_byte, toNat_and_0x7F]
  omega

/-- Four bytes hold any number below 2^32 (49 R534). -/
theorem toNat_four_bytes {n : Nat} (h : n < 4294967296) :
    (BitVec.ofNat 8 (n / 16777216)).toNat * 16777216 + (BitVec.ofNat 8 (n / 65536)).toNat * 65536 +
      (BitVec.ofNat 8 (n / 256)).toNat * 256 + (BitVec.ofNat 8 n).toNat = n := by
  simp only [BitVec.toNat_ofNat]
  omega

theorem DiskUnit.capacity_eq (u : DiskUnit) : u.capacity = (u.extraSlices.val + 1) * 16384 := rfl

theorem DiskUnit.capacity_lt (u : DiskUnit) : u.capacity < 4294967296 := by
  have := u.extraSlices.isLt
  rw [DiskUnit.capacity_eq]; omega

/-- The unit table with one unit replaced. -/
theorem getElem_setUnit (t : State) (i : Fin 16) (u : DiskUnit) :
    (∀ j : Fin 16, j ≠ i → (t.setUnit i u).units[j.val] = t.unitAt j) ∧ (t.setUnit i u).units[i.val] = u :=
  ⟨fun j h => (t.unitAt_setUnit i j u).trans (if_neg h), (t.unitAt_setUnit i i u).trans (if_pos rfl)⟩

/-- Settles O51: the check by the laws of `onUnit`, the two numbers as sums of bytes. -/
theorem hbiosDiskSeekAndCapacity : Obligations.HbiosDiskSeekAndCapacity := by
  refine fun s t => ⟨fun hb hc => ?outside, fun i hb hc hp => ?absent,
    fun i hc hp => ⟨fun hb => ⟨(t.setUnit i ((t.unitAt i).seek t.lba)).units, ?seek, ?others, t.lba, ?self, t.lba_toNat⟩,
      fun hb => ⟨_, _, _, _, ?cap, toNat_four_bytes (t.unitAt i).capacity_lt⟩⟩⟩
  case outside =>
    obtain ⟨f, hf⟩ := hbiosDispatch_disk (s := s) hb
    rw [hf, onUnit_outside hc]; rfl
  case absent =>
    obtain ⟨f, hf⟩ := hbiosDispatch_disk (s := s) hb
    rw [hf, onUnit_absent hc hp]; rfl
  case seek => rw [hbiosDispatch_dioSeek hb, dioSeek, onUnit_present hc hp]; rfl
  case others => exact (getElem_setUnit t i _).1
  case self => exact (getElem_setUnit t i _).2
  case cap => rw [hbiosDispatch_dioCap hb, dioCap, onUnit_present hc hp]; rfl

/-! ### DIOREAD and DIOWRITE -/

/-- What DIOREAD does on a present unit, for every count (49 R532). -/
theorem dioRead_eq {t : State} {i : Fin 16} {k : Nat} (hc : t.main.c.toNat = i.val) (hp : (t.unitAt i).present = true)
    (hk : k = min t.main.e.toNat (t.unitAt i).sectorsLeft) (hpos : (t.unitAt i).position.toNat + k < 4294967296) :
    dioRead t = { t with
      ram := (t.storeList t.hl
        ((t.unitAt i).data.bytes.readList ((t.unitAt i).position.toNat * 512) (512 * k))).ram
      units := (t.setUnit i ((t.unitAt i).afterRead k)).units
      main := { t.main with a := if k = t.main.e.toNat then 0x00 else 0x03, e := byteOf k } } := by
  rw [dioRead, onUnit_present hc hp, diskRead_count 0 t.hl hk hpos, storeList_eq, Nat.zero_add]
  rfl

/-- What DIOWRITE does on a present unit, for every count (49 R533). -/
theorem dioWrite_eq {t : State} {i : Fin 16} {k : Nat} (hc : t.main.c.toNat = i.val) (hp : (t.unitAt i).present = true)
    (hk : k = min t.main.e.toNat (t.unitAt i).sectorsLeft) (hpos : (t.unitAt i).position.toNat + k < 4294967296) :
    dioWrite t = { t with
      units := (t.setUnit i ((t.unitAt i).afterWrite k (t.fetchList t.hl (512 * k)))).units
      main := { t.main with a := if k = t.main.e.toNat then 0x00 else 0x03, e := byteOf k } } := by
  rw [dioWrite, onUnit_present hc hp, diskWrite_count 0 t.hl hk hpos, Nat.zero_add]
  rfl

/-- The bytes of `ram` after a stretch of a memory is stored through the window. -/
theorem ramAfter_storeList_readList (t : State) (a : Word) (m : Memory) (off n : Nat) :
    ramAfter t (t.storeList a (m.readList off n)).ram
      ((List.range n).map fun q => (a + BitVec.ofNat 16 q, m.read (off + q))) := by
  have h := ramAfter_storeList t a (m.readList off n)
  rw [Memory.length_readList] at h
  have hmap : ((List.range n).map fun q => (a + BitVec.ofNat 16 q, (m.readList off n).getD q 0)) =
      (List.range n).map fun q => (a + BitVec.ofNat 16 q, m.read (off + q)) :=
    List.map_congr_left fun q hq => by rw [Memory.getD_readList _ _ _ _ (List.mem_range.1 hq)]
  rwa [hmap] at h

/-- A byte of a memory after a stretch of the window is written to it. -/
theorem read_writeList_fetchList (t : State) (a : Word) (m : Memory) (off n q : Nat) :
    (m.writeList off (t.fetchList a n)).read q =
      if off ≤ q ∧ q < off + n then t.fetch (a + BitVec.ofNat 16 (q - off)) else m.read q := by
  rw [Memory.read_writeList, State.length_fetchList]
  split
  next h => rw [getD_fetchList _ _ _ _ (by omega)]
  next => rfl

/-- Settles O52: the loops by `dioRead_eq` and `dioWrite_eq`, the bytes moved by the laws of the two lists. -/
theorem hbiosDiskTransfer : Obligations.HbiosDiskTransfer := by
  rintro s t i _ k hc hp rfl hk hpos
  refine ⟨fun hb => ⟨_, _, ?read, ramAfter_storeList_readList t t.hl _ _ _, getElem_setUnit t i _⟩,
    fun hb => ⟨_, _, ?write, (getElem_setUnit t i _).1, (getElem_setUnit t i _).2,
      fun q => read_writeList_fetchList t t.hl _ _ _ q⟩⟩
  case read => rw [hbiosDispatch_dioRead hb, dioRead_eq hc hp hk hpos]; rfl
  case write => rw [hbiosDispatch_dioWrite hb, dioWrite_eq hc hp hk hpos]; rfl

/-! ### `hbios_ext` -/

/-- DIORESET leaves set every `dirty` that was set (49 R530). -/
theorem dirty_hbiosExtended {t : State} {i : Fin 16} (hb : t.main.b = 0x11) (hd : (t.unitAt i).dirty = true) :
    ((hbiosExtended t).unitAt i).dirty = true := by
  rw [unitAt_hbiosExtended, hb]
  simp [keepDirty, hd]

/-- `hbios_ext` is given no more than its arguments (49 R550): what it answers is the same wherever they are. -/
theorem hbiosExtended_congr {t t' : State} (h : t'.hbiosArgs = t.hbiosArgs) :
    hbiosExtended t' = { t' with
      main := { (hbiosExtended t).main with f := t'.main.f }
      ram := (hbiosExtended t).ram, units := (hbiosExtended t).units } := by
  have hb : t'.main.b = t.main.b := congrArg HbiosArgs.fn h
  have hram : t'.ram = t.ram := congrArg HbiosArgs.ram h
  have hunits : t'.units = t.units := congrArg HbiosArgs.units h
  unfold hbiosExtended
  rw [h, hb, hram, hunits]

theorem hbiosDispatch_ext_congr {s' t t' : State} (hb : t.main.b ∉
      [0x00, 0x01, 0x02, 0x03, 0x12, 0x13, 0x14, 0x1A, 0xF0, 0xF1, 0xF2, 0xF3, 0xF4, 0xFA, 0xFB, 0xFE])
    (h : t'.hbiosArgs = t.hbiosArgs) : hbiosDispatch s' t' = .next { t' with
      main := { (hbiosExtended t).main with f := t'.main.f }
      ram := (hbiosExtended t).ram, units := (hbiosExtended t).units } := by
  have hb' : t'.main.b = t.main.b := congrArg HbiosArgs.fn h
  rw [hbiosDispatch_ext (hb' ▸ hb), hbiosExtended_congr h]

/-- Settles O53: a code outside the list goes to `hbios_ext`, which `hbiosDispatch_ext_congr` frames. -/
theorem hbiosExtFrame : Obligations.HbiosExtFrame := fun _ _ hb =>
  ⟨_, _, _, _, _, _, _, _, _, hbiosDispatch_ext_congr hb rfl, fun hreset _ hd => dirty_hbiosExtended hreset hd,
    fun _ _ h => hbiosDispatch_ext_congr hb h⟩

end Sys2Proof.Machine

namespace Sys2Proof

/-- Settles O48: the states between are the loop's own, cut after each byte. -/
theorem bankCopy : Obligations.BankCopy :=
  ⟨fun _ h => if_pos h, fun t h =>
    ⟨fun i => Machine.copyBytes (t.fetch 0xFFE4) (t.fetch 0xFFE7) i t.hl t.de t, _, _, _, _, rfl,
      fun i _ => Machine.copyBytes_succ _ _ i _ _ t, Machine.bankCopy_next h⟩⟩

end Sys2Proof
end

section
/-! SUPPORT. The exchange and CPU control family (48_exchange_cpu_control), power-on and the host's `reset` and `load_rom`
(70_reset_and_hazards). -/

namespace Sys2Proof.Machine

/-! ### Exchanges -/

theorem State.setDE_mkWord (s : State) (d e : Byte) :
    s.setDE (mkWord d e) = { s with main := { s.main with d := d, e := e } } := by
  rw [State.setDE, highByte_mkWord, lowByte_mkWord]

theorem exec_exDEHL (s : State) : exec .exDEHL s =
    .next { fetched s 1 1 with main := { s.main with d := s.main.h, e := s.main.l, h := s.main.d, l := s.main.e } } := by
  rw [exec_update_fetched (i := .exDEHL) (fun t => (t.setDE s.hl).setHL s.de) rfl, State.hl, State.de,
    State.setDE_mkWord, State.setHL_mkWord]
  rfl

theorem exec_exAtSPHL (s : State) : exec .exAtSPHL s = .next { fetched s 1 1 with
    ram := (s.store16 s.sp s.hl).ram, main := { s.main with h := s.fetch (s.sp + 1), l := s.fetch s.sp } } := by
  rw [exec_update_fetched (i := .exAtSPHL) (fun t => (t.store16 s.sp s.hl).setHL s.top16) rfl, State.top16, State.fetch16,
    State.setHL_mkWord]
  rfl

/-- `HL` stored through the window is `L`, then `H` (20 R79). -/
theorem ramAfter_store16_hl (s : State) (a : Word) :
    ramAfter s (s.store16 a s.hl).ram [(a, s.main.l), (a + 1, s.main.h)] := by
  rw [State.store16, State.hl, lowByte_mkWord, highByte_mkWord]
  exact ramAfter_store_store s a (a + 1) _ _

/-- Settles O56: the registers swapped on the fetched state, the word stored at `SP` by `ramAfter_store16`; the word read
there is read from the state before. -/
theorem exchanges : Obligations.Exchanges := fun s =>
  ⟨⟨decodesTo_one fun _ _ _ => rfl, exec_exDEHL s⟩,
    ⟨decodesTo_one fun _ _ _ => rfl, exec_update_fetched (fun t => { t with
      main := { s.main with a := s.shadow.a, f := s.shadow.f }
      shadow := { s.shadow with a := s.main.a, f := s.main.f } }) rfl⟩,
    ⟨decodesTo_one fun _ _ _ => rfl, exec_update_fetched (fun t => { t with
      main := { s.shadow with a := s.main.a, f := s.main.f }
      shadow := { s.main with a := s.shadow.a, f := s.shadow.f } }) rfl⟩,
    ⟨decodesTo_one fun _ _ _ => rfl, _, exec_exAtSPHL s, ramAfter_store16_hl s s.sp⟩,
    ⟨decodesTo_two fun _ _ => rfl, _,
      exec_update_fetched (fun t => { t.store16 s.sp s.ix with ix := s.fetch16 s.sp }) rfl, ramAfter_store16 s s.sp s.ix⟩,
    ⟨decodesTo_two fun _ _ => rfl, _,
      exec_update_fetched (fun t => { t.store16 s.sp s.iy with iy := s.fetch16 s.sp }) rfl, ramAfter_store16 s s.sp s.iy⟩⟩

/-! ### CPU control -/

/-- Settles O57: every form is one update of the fetched state. -/
theorem cpuControl : Obligations.CpuControl := fun _ =>
  ⟨⟨decodesTo_one fun _ _ _ => rfl, exec_update_fetched id rfl⟩,
    ⟨decodesTo_one fun _ _ _ => rfl, exec_update_fetched State.raiseHalt rfl⟩,
    ⟨decodesTo_one fun _ _ _ => rfl, exec_update_fetched (fun t => { t with iff1 := false, iff2 := false }) rfl⟩,
    ⟨decodesTo_one fun _ _ _ => rfl, exec_update_fetched (fun t => { t with iff1 := true, iff2 := true }) rfl⟩,
    ⟨decodesTo_two fun _ _ => rfl, exec_update_fetched (fun t => { t with im := .im0 }) rfl⟩,
    ⟨decodesTo_two fun _ _ => rfl, exec_update_fetched (fun t => { t with im := .im1 }) rfl⟩,
    ⟨decodesTo_two fun _ _ => rfl, exec_update_fetched (fun t => { t with im := .im2 }) rfl⟩⟩

/-! ### Power-on and reset -/

/-- Settles O58: what is not an argument of `State.powerOn` is a constant of its definition. -/
theorem powerOn : Obligations.PowerOn := by
  refine ⟨?_, _, _, _, _, _, _, _, _, _, rfl⟩
  rintro main shadow ix iy sp rom ram blocking units s rfl
  exact ⟨rfl, rfl, rfl, rfl, rfl, rfl, rfl, rfl, rfl, rfl, rfl, rfl, rfl, rfl, rfl⟩

/-- `reset()` touches no memory, and leaves the machine idle with no report (70 R652). -/
theorem State.Inv.hostReset {s : State} (h : s.Inv) : (hostReset s).Inv :=
  ⟨h.rom, h.ram, h.units, by simp [Machine.hostReset], by simp [Machine.hostReset], by simp [Machine.hostReset]⟩

/-! ### `load_rom` -/

theorem loadRom_eq_none_iff {image : List Byte} {tail : Memory} {s : State} :
    loadRom image tail s = none ↔ image.length = 0 ∨ 524288 < image.length := by
  rw [loadRom]
  split
  next h => exact iff_of_true rfl h
  next h => exact iff_of_false nofun h

/-- The ROM `load_rom` leaves: the image at offset 0, its byte at `apiTypeOffset` patched (70 R651). -/
def loadedRom (image : List Byte) (tail : Memory) : Memory := (tail.writeList 0 image).write apiTypeOffset 0x00

theorem read_loadedRom {image : List Byte} {k : Nat} (tail : Memory) (hk : k < image.length) (hne : k ≠ 0x0112) :
    (loadedRom image tail).read k = image.getD k 0 := by
  rw [loadedRom, Memory.read_write_of_ne (a := apiTypeOffset) _ _ hne, Memory.read_writeList,
    if_pos ⟨Nat.zero_le k, by omega⟩, Nat.sub_zero]

theorem wf_loadedRom {image : List Byte} {tail : Memory} (h : tail.wf) (hlen : image.length ≤ 524288) :
    (loadedRom image tail).wf :=
  Memory.wfBelow_write (Memory.wfBelow_writeList h (by rw [Nat.zero_add]; exact hlen)) (by decide) _

theorem loadRom_eq_some {image : List Byte} (tail : Memory) (s : State) (hpos : 0 < image.length)
    (hlen : image.length ≤ 524288) : loadRom image tail s = some { s with
      rom := loadedRom image tail, ram := headCopied (loadedRom image tail) Memory.blank 0, initMask := 0 } := by
  have h : ¬(image.length = 0 ∨ Config.physSize < image.length) := by
    unfold Config.physSize; omega
  rw [loadRom, if_neg h]
  rfl

/-- New memories in canonical form, and no bank initialised, keep the invariant. -/
theorem State.Inv.memories {s : State} (h : s.Inv) {rom ram : Memory} (hrom : rom.wf) (hram : ram.wf)
    (mask : BitVec 16) : { s with rom := rom, ram := ram, initMask := mask }.Inv :=
  ⟨hrom, hram, h.units, h.halted, h.waiting, h.report⟩

end Sys2Proof.Machine

namespace Sys2Proof

open Machine in
/-- Settles O59: the constants are the definition's own, and writing them twice is writing them once. -/
theorem hostReset : Obligations.HostReset := fun _ => ⟨rfl, rfl, State.Inv.hostReset⟩

open Machine in
/-- Settles O60: the ROM by `loadedRom`, the RAM by `read_headCopied_blank`. -/
theorem loadRom : Obligations.LoadRom := by
  refine fun image tail s => ⟨loadRom_eq_none_iff, fun hpos hlen => ⟨_, _, loadRom_eq_some tail s hpos hlen,
    fun k hk hne => read_loadedRom tail hk hne, Memory.read_write_same _ _ _, ?ram, fun hi htail =>
      hi.memories (wf_loadedRom htail hlen) (wf_headCopied wf_blank _ (by omega)) 0⟩⟩
  case ram => exact read_headCopied_blank _

end Sys2Proof
end

section
/-! SUPPORT. The encoder and the decoder are inverse to each other (30_encoding R120 to R134). -/

namespace Sys2Proof

/-! ### Which numbers a well-formed instruction holds (30 R126) -/

theorem Instr.wellFormed_iff {i : Instr} :
    i.wellFormed = true ↔ (∀ b, i.bitNumber = some b → b < 8) ∧ (∀ t, i.restartIndex = some t → t < 8) := by
  unfold Instr.wellFormed
  cases i.bitNumber <;> cases i.restartIndex <;> simp

theorem Instr.bitNumber_lt {i : Instr} (h : i.wellFormed = true) {b : Nat} (hb : i.bitNumber = some b) : b < 8 :=
  (Instr.wellFormed_iff.1 h).1 b hb

theorem Instr.restartIndex_lt {i : Instr} (h : i.wellFormed = true) {t : Nat} (ht : i.restartIndex = some t) : t < 8 :=
  (Instr.wellFormed_iff.1 h).2 t ht

end Sys2Proof

namespace Sys2Proof.Machine

/-! ### Decoding an encoding -/

theorem decodesTo_encode_word {b0 : Byte} {i : Word → Instr}
    (h : ∀ b1 b2 b3, decode4 b0 b1 b2 b3 = .instr (i (mkWord b2 b1)) 3) (nn : Word) :
    decodesTo [b0, lowByte nn, highByte nn] (i nn) := by
  rw [lowByte_eq, highByte_eq]; exact decodesTo_word h nn

theorem decodesTo_encode_two_word {b0 b1 : Byte} {i : Word → Instr}
    (h : ∀ b2 b3, decode4 b0 b1 b2 b3 = .instr (i (mkWord b3 b2)) 4) (nn : Word) :
    decodesTo [b0, b1, lowByte nn, highByte nn] (i nn) := by
  rw [lowByte_eq, highByte_eq]; exact decodesTo_two_word h nn

/-- Every encoding is decoded: by its length, and by the register, pair, condition or number in its opcode byte. -/
theorem decodesTo_encode {i : Instr} (h : i.wellFormed = true) : decodesTo (encode i) i := by
  cases i
  -- one opcode byte with a code in it
  case ldRR r src => cases r <;> cases src <;> exact decodesTo_one fun _ _ _ => rfl
  case ldRAtHL x | ldAtHLR x | pushQQ x | popQQ x | addR x | adcR x | subR x | sbcR x | andR x | xorR x | orR x | cpR x
    | incR x | decR x | addHLSS x | incSS x | decSS x | retCc x =>
    cases x <;> exact decodesTo_one fun _ _ _ => rfl
  case rst t =>
    have ht : t < 8 := Instr.restartIndex_lt h rfl
    interval_cases t <;> exact decodesTo_one fun _ _ _ => rfl
  -- one opcode byte with a code in it, and an operand
  case ldRN r n => cases r <;> exact decodesTo_two fun _ _ => rfl
  case ldDDNN dd nn => cases dd <;> exact decodesTo_encode_word (i := .ldDDNN _) (fun _ _ _ => rfl) nn
  case jpCcNN cc nn => cases cc <;> exact decodesTo_encode_word (i := .jpCcNN _) (fun _ _ _ => rfl) nn
  case callCcNN cc nn => cases cc <;> exact decodesTo_encode_word (i := .callCcNN _) (fun _ _ _ => rfl) nn
  -- two opcode bytes, a code in the second
  case adcHLSS x | sbcHLSS x | addIXPP x | addIYRR x | rlcR x | rrcR x | rlR x | rrR x | slaR x | sraR x | srlR x
    | inRPortC x | outPortCR x =>
    cases x <;> exact decodesTo_two fun _ _ => rfl
  case ldRAtIX x _ | ldRAtIY x _ | ldAtIXR _ x | ldAtIYR _ x => cases x <;> exact decodesTo_three fun _ => rfl
  case ldDDAtNN dd nn => cases dd <;> exact decodesTo_encode_two_word (i := .ldDDAtNN _) (fun _ _ => rfl) nn
  case ldAtNNDD nn dd => cases dd <;> exact decodesTo_encode_two_word (i := (.ldAtNNDD · _)) (fun _ _ => rfl) nn
  -- two opcode bytes, a bit number in the last
  case bitR b r | setR b r | resR b r =>
    have hb : b < 8 := Instr.bitNumber_lt h rfl
    interval_cases b <;> cases r <;> exact decodesTo_two fun _ _ => rfl
  case bitAtHL b | setAtHL b | resAtHL b =>
    have hb : b < 8 := Instr.bitNumber_lt h rfl
    interval_cases b <;> exact decodesTo_two fun _ _ => rfl
  case bitAtIX b _ | bitAtIY b _ | setAtIX b _ | setAtIY b _ | resAtIX b _ | resAtIY b _ =>
    have hb : b < 8 := Instr.bitNumber_lt h rfl
    interval_cases b <;> exact decodesTo_four rfl
  -- fixed opcode bytes, and a word
  case ldAAtNN nn | ldAtNNA nn | ldHLAtNN nn | ldAtNNHL nn | jpNN nn | callNN nn =>
    exact decodesTo_encode_word (fun _ _ _ => rfl) nn
  case ldIXNN nn | ldIYNN nn | ldIXAtNN nn | ldIYAtNN nn | ldAtNNIX nn | ldAtNNIY nn =>
    exact decodesTo_encode_two_word (fun _ _ => rfl) nn
  -- fixed opcode bytes alone, or with a displacement or a byte
  case ldAAtBC | ldAAtDE | ldAtBCA | ldAtDEA | ldSPHL | addAtHL | adcAtHL | subAtHL | sbcAtHL | andAtHL | xorAtHL
    | orAtHL | cpAtHL | incAtHL | decAtHL | daa | cpl | ccf | scf | rlca | rla | rrca | rra | jpHL | ret | exDEHL
    | exAFAF | exx | exAtSPHL | nop | halt | di | ei =>
    exact decodesTo_one fun _ _ _ => rfl
  case ldAtHLN | ldAI | ldAR | ldIA | ldRA | ldSPIX | ldSPIY | pushIX | pushIY | popIX | popIY | addN | adcN | subN
    | sbcN | andN | xorN | orN | cpN | neg | incIX | incIY | decIX | decIY | rlcAtHL | rrcAtHL | rlAtHL | rrAtHL
    | slaAtHL | sraAtHL | srlAtHL | rld | rrd | jrE | jrCE | jrNcE | jrZE | jrNzE | jpIX | jpIY | djnzE | reti
    | retn | inAPortN | ini | inir | ind | indr | outPortNA | outi | otir | outd | otdr | ldi | ldir | ldd | lddr
    | cpi | cpir | cpd | cpdr | exAtSPIX | exAtSPIY | im0 | im1 | im2 =>
    exact decodesTo_two fun _ _ => rfl
  case addAtIX | addAtIY | adcAtIX | adcAtIY | subAtIX | subAtIY | sbcAtIX | sbcAtIY | andAtIX | andAtIY | xorAtIX
    | xorAtIY | orAtIX | orAtIY | cpAtIX | cpAtIY | incAtIX | incAtIY | decAtIX | decAtIY =>
    exact decodesTo_three fun _ => rfl
  case ldAtIXN | ldAtIYN | rlcAtIX | rlcAtIY | rrcAtIX | rrcAtIY | rlAtIX | rlAtIY | rrAtIX | rrAtIY | slaAtIX
    | slaAtIY | sraAtIX | sraAtIY | srlAtIX | srlAtIY =>
    exact decodesTo_four rfl

/-- Settles O2: `decodesTo_encode`, read at any bytes. -/
theorem decodeOfEncode : Obligations.DecodeOfEncode := fun _ rest h => decodesTo_encode h rest

/-- Settles O1: each word is the encoding of its instruction. -/
theorem encodingWords : Obligations.EncodingWords :=
  ⟨decodesTo_encode (i := .ldRR .b .c) rfl, decodesTo_encode (i := .ldRN .a 0x15) rfl,
    decodesTo_encode (i := .ldRAtIX .b 0xFF) rfl, decodesTo_encode (i := .ldDDAtNN .sp 0x9000) rfl,
    decodesTo_encode (i := .orR .l) rfl, decodesTo_encode (i := .addIYRR .iy) rfl,
    decodesTo_encode (i := .sraAtIX 0x7F) rfl, decodesTo_encode (i := .bitR 7 .b) rfl,
    decodesTo_encode (i := .jpCcNN .po 0xA000) rfl, decodesTo_encode (i := .outPortNA 0xEF) rfl,
    decodesTo_encode (i := .cpdr) rfl, decodesTo_encode (i := .halt) rfl⟩

end Sys2Proof.Machine

namespace Sys2Proof
open Machine

/-! ### Encoding what was decoded -/

/-- What the encoder writes for a decoded instruction, how many bytes, and whether it can express it. -/
def Decoded.written : Decoded → Option (List Byte × Nat × Bool)
  | .instr i _ => some (encode i, i.length, i.wellFormed)
  | .unimplemented _ _ => none

/-- What it must write where the bytes looked at were `bytes`. -/
def Decoded.expected (bytes : List Byte) : Decoded → Option (List Byte × Nat × Bool)
  | .instr _ len => some (bytes.take len, len, true)
  | .unimplemented _ _ => none

/-- The instruction decoded, if any, is one the encoding can express and is written back as the bytes it was read from. -/
def Decoded.Faithful (d : Decoded) (bytes : List Byte) : Prop := d.written = d.expected bytes

/-- The opcode bytes that meet a condition. -/
def bytesWith (p : Byte → Prop) [DecidablePred p] : List Byte := ((List.range 256).map opcode).filter p

theorem mem_bytesWith {p : Byte → Prop} [DecidablePred p] {b : Byte} (h : p b) : b ∈ bytesWith p := by
  have hb : opcode b.toNat = b := by rw [opcode, BitVec.ofNat_toNat, BitVec.setWidth_eq]
  exact List.mem_filter.2 ⟨List.mem_map.2 ⟨b.toNat, List.mem_range.2 b.isLt, hb⟩, decide_eq_true h⟩

/-- A table is faithful by a walk over its opcode byte; the operand bytes stay free. -/
theorem faithful_of_walk {p : Byte → Prop} [DecidablePred p] {d : Byte → Decoded} {bytes : Byte → List Byte}
    (h : (bytesWith p).map (fun b => (d b).written) = (bytesWith p).map (fun b => (d b).expected (bytes b)))
    (b : Byte) (hb : p b) : (d b).Faithful (bytes b) :=
  List.map_inj_left.1 h b (mem_bytesWith hb)

section
variable (nn : Word) (b1 b2 b3 : Byte)

theorem faithful_decodeMain0 : ∀ b, fieldX b = 0 →
    (decodeMain0 b (lowByte nn) nn).Faithful [b, lowByte nn, highByte nn, b3] :=
  faithful_of_walk rfl

theorem faithful_decodeMain1 : ∀ b, fieldX b = 1 → (decodeMain1 b).Faithful [b, b1, b2, b3] :=
  faithful_of_walk rfl

theorem faithful_decodeMain2 : ∀ b, fieldX b = 2 → (decodeMain2 b).Faithful [b, b1, b2, b3] :=
  faithful_of_walk rfl

theorem faithful_decodeMain3 : ∀ b, fieldX b = 3 →
    (decodeMain3 b (lowByte nn) nn).Faithful [b, lowByte nn, highByte nn, b3] :=
  faithful_of_walk rfl

theorem faithful_decodeCB (x : Nat) (hx : x < 4) : ∀ b, fieldX b = x → (decodeCB b).Faithful [0xCB, b, b2, b3] := by
  interval_cases x <;> exact faithful_of_walk rfl

theorem faithful_decodeED1 : ∀ b, fieldX b = 1 → (decodeED1 b nn).Faithful [0xED, b, lowByte nn, highByte nn] :=
  faithful_of_walk rfl

theorem faithful_decodeED2 : ∀ b, fieldX b = 2 → (decodeED2 b).Faithful [0xED, b, b2, b3] :=
  faithful_of_walk rfl

theorem faithful_decodeXY0 (k : Index) : ∀ b, fieldX b = 0 →
    (decodeXY0 k b (lowByte nn) (highByte nn) nn).Faithful [k.pick 0xDD 0xFD, b, lowByte nn, highByte nn] := by
  cases k <;> exact faithful_of_walk rfl

theorem faithful_decodeXY1 (k : Index) : ∀ b, fieldX b = 1 →
    (decodeXY1 k b b2).Faithful [k.pick 0xDD 0xFD, b, b2, b3] := by
  cases k <;> exact faithful_of_walk rfl

theorem faithful_decodeXY2 (k : Index) : ∀ b, fieldX b = 2 →
    (decodeXY2 k b b2).Faithful [k.pick 0xDD 0xFD, b, b2, b3] := by
  cases k <;> exact faithful_of_walk rfl

theorem faithful_decodeXY3 (k : Index) : ∀ b, fieldX b = 3 →
    (decodeXY3 k b).Faithful [k.pick 0xDD 0xFD, b, b2, b3] := by
  cases k <;> exact faithful_of_walk rfl

theorem faithful_decodeXYCB (k : Index) (x : Nat) (hx : x < 4) : ∀ b, fieldX b = x →
    (decodeXYCB k b2 b).Faithful [k.pick 0xDD 0xFD, 0xCB, b2, b] := by
  cases k <;> interval_cases x <;> exact faithful_of_walk rfl

end

theorem fieldX_lt (b : Byte) : fieldX b < 4 := by
  have := b.isLt
  unfold fieldX; omega

/-- The top two bits of an opcode byte choose the quarter of its table (30 R120). -/
theorem fieldX_eq_three {b : Byte} (h0 : fieldX b ≠ 0) (h1 : fieldX b ≠ 1) (h2 : fieldX b ≠ 2) : fieldX b = 3 := by
  have := fieldX_lt b
  omega

theorem faithful_unimplemented (op : Byte) (seen : Nat) (bytes : List Byte) :
    (Decoded.unimplemented op seen).Faithful bytes := rfl

theorem faithful_decodeED (b1 b2 b3 : Byte) : (decodeED b1 (mkWord b3 b2)).Faithful [0xED, b1, b2, b3] := by
  unfold decodeED
  split
  next h =>
    have hf := faithful_decodeED1 (mkWord b3 b2) b1 h
    rwa [lowByte_mkWord, highByte_mkWord] at hf
  next h => exact faithful_decodeED2 b2 b3 b1 h
  next => exact faithful_unimplemented _ _ _

theorem faithful_decodeXY (k : Index) (b1 b2 b3 : Byte) :
    (decodeXY k b1 b2 b3).Faithful [k.pick 0xDD 0xFD, b1, b2, b3] := by
  unfold decodeXY
  split
  next h => subst h; exact faithful_decodeXYCB b2 k (fieldX b3) (fieldX_lt b3) b3 rfl
  next =>
    split
    next h =>
      have hf := faithful_decodeXY0 (mkWord b3 b2) k b1 h
      rwa [lowByte_mkWord, highByte_mkWord] at hf
    next h => exact faithful_decodeXY1 b2 b3 k b1 h
    next h => exact faithful_decodeXY2 b2 b3 k b1 h
    next h0 h1 h2 => exact faithful_decodeXY3 b2 b3 k b1 (fieldX_eq_three h0 h1 h2)

/-- The decoder gives no instruction but one whose encoding is the bytes it looked at. -/
theorem faithful_decode4 (b0 b1 b2 b3 : Byte) : (decode4 b0 b1 b2 b3).Faithful [b0, b1, b2, b3] := by
  unfold decode4
  split
  next h => subst h; exact faithful_decodeCB b2 b3 (fieldX b1) (fieldX_lt b1) b1 rfl
  split
  next h => subst h; exact faithful_decodeED b1 b2 b3
  split
  next h => subst h; exact faithful_decodeXY .ix b1 b2 b3
  split
  next h => subst h; exact faithful_decodeXY .iy b1 b2 b3
  split
  next h =>
    have hf := faithful_decodeMain0 (mkWord b2 b1) b3 b0 h
    rwa [lowByte_mkWord, highByte_mkWord] at hf
  next h => exact faithful_decodeMain1 b1 b2 b3 b0 h
  next h => exact faithful_decodeMain2 b1 b2 b3 b0 h
  next h0 h1 h2 =>
    have hf := faithful_decodeMain3 (mkWord b2 b1) b3 b0 (fieldX_eq_three h0 h1 h2)
    rwa [lowByte_mkWord, highByte_mkWord] at hf

theorem Decoded.Faithful.instr {i : Instr} {len : Nat} {bytes : List Byte} (h : (Decoded.instr i len).Faithful bytes) :
    encode i = bytes.take len ∧ len = (encode i).length ∧ i.wellFormed = true := by
  have h' : (encode i, i.length, i.wellFormed) = (bytes.take len, len, true) := Option.some.inj h
  simp only [Prod.mk.injEq] at h'
  exact ⟨h'.1, h'.2.1.symm, h'.2.2⟩

/-- The first bytes of a list, up to four, taken one by one. -/
theorem take_getD (bytes : List Byte) {len : Nat} (h4 : len ≤ 4) (hlen : len ≤ bytes.length) :
    [bytes.getD 0 0, bytes.getD 1 0, bytes.getD 2 0, bytes.getD 3 0].take len = bytes.take len := by
  refine List.ext_getElem (by simp; omega) fun k hk hk' => ?_
  have hk4 : k < 4 := by simp at hk; omega
  have hkl : k < bytes.length := by simp at hk'; omega
  interval_cases k <;> simp [hkl]

/-- Settles O3: the first four bytes by `faithful_decode4`, as many of them as the encoding has. -/
theorem encodeOfDecode : Obligations.EncodeOfDecode := by
  intro bytes i rest h
  obtain ⟨len, hlen, rfl, hd⟩ := decode4_of_decode h
  have hf := faithful_decode4 (bytes.getD 0 0) (bytes.getD 1 0) (bytes.getD 2 0) (bytes.getD 3 0)
  rw [hd] at hf
  obtain ⟨hcode, hcount, hwf⟩ := hf.instr
  have h4 : len ≤ 4 := by rw [hcode, List.length_take] at hcount; simp at hcount; omega
  rw [take_getD bytes h4 hlen] at hcode
  exact ⟨by rw [hcode, List.take_append_drop], hwf⟩

end Sys2Proof
end
